-- ==== Sys2Proof/Word.lean ====
section
/-! DEFINITION. The word types of the core: the byte, the 32-bit register word (10_state.md R22) and the
128-bit block (00_scope.md R12). -/

namespace Sys2Proof

/-- One byte: a block byte, a host-memory byte, or one 8-bit channel lane. -/
abbrev Byte := BitVec 8

/-- One 32-bit register word (10_state.md R22). -/
abbrev Word := BitVec 32

/-- The 128-bit block `blk`; its bit `k` is stream bit `k` (00_scope.md R12, 20_memory.md R38). -/
abbrev Block := BitVec 128

/-- The mode register `m`, 0 to 7 (10_state.md R30). -/
abbrev Mode := Fin 8

end Sys2Proof
end

