-- ==== Sys2Proof/Config.lean ====
section
/-! DEFINITION. The fixed parameters of 00_scope.md R9, the OPEN parameters of R11 (which no proof can see into) and
the free value the spec leaves open. The ROM contents stand in Machine/Roms.lean. -/

namespace Sys2Proof

/-- The format tag of 46_host_interface.md R144. -/
inductive FormatTag where
  | unknown
  | bc6hSignedFloat
  | bc6hUnsignedFloat
  | bc7Unorm
  deriving DecidableEq, Repr, Inhabited

namespace Config

/-- BLOCK_BITS (00_scope.md R9). -/
abbrev blockBits : Nat := 128

/-- BLOCK_BYTES (00_scope.md R9). -/
abbrev blockBytes : Nat := 16

/-- TEXELS_PER_BLOCK (00_scope.md R9). -/
abbrev texelsPerBlock : Nat := 16

/-- REG_BASE, the host address of the register block: OPEN (20_memory.md R48, decision D11). No rule depends on its
value; accesses name offsets from it. -/
opaque regBase : Nat

/-- SIZE_BITS, the width of the host's sizes: OPEN (46_host_interface.md R146, decision D20). -/
opaque sizeBits : Nat

/-- FORMAT_TAG_CODE, the map from tag values to the four tags: OPEN (46_host_interface.md R144, decision D19). -/
opaque formatTagCode : Nat → Option FormatTag

/-- One half of BLOCK_MODE_FAIL (46_host_interface.md R159, decision D24): how far the failure value lies outside
0 to 7. -/
opaque blockModeFailDistance : Nat

/-- The other half of BLOCK_MODE_FAIL: whether it lies below 0 or above 7. -/
opaque blockModeFailBelow : Bool

/-- BLOCK_MODE_FAIL, any value outside 0 to 7: every such value is reached by some pair of the two open halves, and no
other value is. -/
def blockModeFail : Int :=
  if blockModeFailBelow then -1 - (blockModeFailDistance : Int) else 8 + (blockModeFailDistance : Int)

/-- The free value of 46_host_interface.md R158: what a destination byte holds after `decode` with an unknown format
tag. State's counter `freeUsed` gives each such byte its own argument. -/
opaque freeDstByte : Nat → Byte

/-- The free value of a BLK register that nothing has written since reset (10_state.md R36, "no value (unspecified)"), as a
read or a command meets it; the first argument is State's counter `freeUsed`. Log entry 16. -/
opaque freeBlkWord : Nat → Fin 4 → Word

/-- The free value of a TEX register read while STATUS.VALID is 0 (10_state.md R27, "an unspecified word"); the first argument
is State's counter `freeUsed`. Log entry 16. -/
opaque freeTexWord : Nat → Fin 16 → Word

end Config

/-- The tag a numeric tag value stands for; every value the map does not name is Unknown (46_host_interface.md R144). -/
def formatOfCode (code : Nat) : FormatTag := (Config.formatTagCode code).getD .unknown

/-- The host address of the register at `offset` (20_memory.md R48, 46_host_interface.md R156). -/
def regAddress (offset : Nat) : Nat := Config.regBase + offset

end Sys2Proof
end

