-- ==== Sys2Proof/Machine/Roms.lean ====
section
/-! DEFINITION. The ROMs (10_state.md R35, contents of 41_lookup_tables.md) and the lookup engine over them: the mode
table, the partition and anchor tables and the interpolation weights. Every value but WEIGHTS2 and WEIGHTS3 is one the spec
supplies from general knowledge (93_implementation_defined.md G1 to G4). -/

namespace Sys2Proof

/-- A mode descriptor, the record of 41_lookup_tables.md R82. -/
structure ModeDescriptor where
  subsets : Nat
  partitionBits : Nat
  rotationBits : Nat
  indexSelectionBits : Nat
  colorBits : Nat
  alphaBits : Nat
  endpointPbits : Nat
  sharedPbits : Nat
  indexBits : Nat
  index2Bits : Nat
  deriving DecidableEq, Repr

/-- MODE_TABLE (41_lookup_tables.md R83). -/
def modeTable (m : Mode) : ModeDescriptor :=
  match m with
  | 0 => ⟨3, 4, 0, 0, 4, 0, 1, 0, 3, 0⟩
  | 1 => ⟨2, 6, 0, 0, 6, 0, 0, 1, 3, 0⟩
  | 2 => ⟨3, 6, 0, 0, 5, 0, 0, 0, 2, 0⟩
  | 3 => ⟨2, 6, 0, 0, 7, 0, 1, 0, 2, 0⟩
  | 4 => ⟨1, 0, 2, 1, 5, 6, 0, 0, 2, 3⟩
  | 5 => ⟨1, 0, 2, 0, 7, 8, 0, 0, 2, 2⟩
  | 6 => ⟨1, 0, 0, 0, 7, 7, 1, 0, 4, 0⟩
  | 7 => ⟨2, 6, 0, 0, 5, 5, 1, 0, 2, 0⟩

/-- The p-bit count `pbc(D)` of the expander (41_lookup_tables.md R84). -/
def ModeDescriptor.pbc (d : ModeDescriptor) : Nat :=
  if d.endpointPbits = 1 ∨ d.sharedPbits = 1 then 1 else 0

/-- PARTITION2 (41_lookup_tables.md R87), a row's sixteen subset ids written as the sixteen hexadecimal digits the
spec prints, texel 0 first. -/
def partition2Rows : List Nat :=
    [0x0011_0011_0011_0011, 0x0001_0001_0001_0001, 0x0111_0111_0111_0111, 0x0001_0011_0011_0111,
     0x0000_0001_0001_0011, 0x0011_0111_0111_1111, 0x0001_0011_0111_1111, 0x0000_0001_0011_0111,
     0x0000_0000_0001_0011, 0x0011_0111_1111_1111, 0x0000_0001_0111_1111, 0x0000_0000_0001_0111,
     0x0001_0111_1111_1111, 0x0000_0000_1111_1111, 0x0000_1111_1111_1111, 0x0000_0000_0000_1111]
    ++ [0x0000_1000_1110_1111, 0x0111_0001_0000_0000, 0x0000_0000_1000_1110, 0x0111_0011_0001_0000,
     0x0011_0001_0000_0000, 0x0000_1000_1100_1110, 0x0000_0000_1000_1100, 0x0111_0011_0011_0001,
     0x0011_0001_0001_0000, 0x0000_1000_1000_1100, 0x0110_0110_0110_0110, 0x0011_0110_0110_1100,
     0x0001_0111_1110_1000, 0x0000_1111_1111_0000, 0x0111_0001_1000_1110, 0x0011_1001_1001_1100]
    ++ [0x0101_0101_0101_0101, 0x0000_1111_0000_1111, 0x0101_1010_0101_1010, 0x0011_0011_1100_1100,
     0x0011_1100_0011_1100, 0x0101_0101_1010_1010, 0x0110_1001_0110_1001, 0x0101_1010_1010_0101,
     0x0111_0011_1100_1110, 0x0001_0011_1100_1000, 0x0011_0010_0100_1100, 0x0011_1011_1101_1100,
     0x0110_1001_1001_0110, 0x0011_1100_1100_0011, 0x0110_0110_1001_1001, 0x0000_0110_0110_0000]
    ++ [0x0100_1110_0100_0000, 0x0010_0111_0010_0000, 0x0000_0010_0111_0010, 0x0000_0100_1110_0100,
     0x0110_1100_1001_0011, 0x0011_0110_1100_1001, 0x0110_0011_1001_1100, 0x0011_1001_1100_0110,
     0x0110_1100_1100_1001, 0x0110_0011_0011_1001, 0x0111_1110_1000_0001, 0x0001_1000_1110_0111,
     0x0000_1111_0011_0011, 0x0011_0011_1111_0000, 0x0010_0010_1110_1110, 0x0100_0100_0111_0111]

/-- PARTITION3 (41_lookup_tables.md R88), written as PARTITION2 is. -/
def partition3Rows : List Nat :=
    [0x0011_0011_0221_2222, 0x0001_0011_2211_2221, 0x0000_2001_2211_2211, 0x0222_0022_0011_0111,
     0x0000_0000_1122_1122, 0x0011_0011_0022_0022, 0x0022_0022_1111_1111, 0x0011_0011_2211_2211,
     0x0000_0000_1111_2222, 0x0000_1111_1111_2222, 0x0000_1111_2222_2222, 0x0012_0012_0012_0012,
     0x0112_0112_0112_0112, 0x0122_0122_0122_0122, 0x0011_0112_1122_1222, 0x0011_2001_2200_2220]
    ++ [0x0001_0011_0112_1122, 0x0111_0011_2001_2200, 0x0000_1122_1122_1122, 0x0022_0022_0022_1111,
     0x0111_0111_0222_0222, 0x0001_0001_2221_2221, 0x0000_0011_0122_0122, 0x0000_1100_2210_2210,
     0x0122_0122_0011_0000, 0x0012_0012_1122_2222, 0x0110_1221_1221_0110, 0x0000_0110_1221_1221,
     0x0022_1102_1102_0022, 0x0110_0110_2002_2222, 0x0011_0122_0122_0011, 0x0000_2000_2211_2221]
    ++ [0x0000_0002_1122_1222, 0x0222_0022_0012_0011, 0x0011_0012_0022_0222, 0x0120_0120_0120_0120,
     0x0000_1111_2222_0000, 0x0120_1201_2012_0120, 0x0120_2012_1201_0120, 0x0011_2200_1122_0011,
     0x0011_1122_2200_0011, 0x0101_0101_2222_2222, 0x0000_0000_2121_2121, 0x0022_1122_0022_1122,
     0x0022_0011_0022_0011, 0x0220_1221_0220_1221, 0x0101_2222_2222_0101, 0x0000_2121_2121_2121]
    ++ [0x0101_0101_0101_2222, 0x0222_0111_0222_0111, 0x0002_1112_0002_1112, 0x0000_2112_2112_2112,
     0x0222_0111_0111_0222, 0x0002_1112_1112_0002, 0x0110_0110_0110_2222, 0x0000_0000_2112_2112,
     0x0110_0110_2222_2222, 0x0022_0011_0011_0022, 0x0022_1122_1122_0022, 0x0000_0000_0000_2112,
     0x0002_0001_0002_0001, 0x0222_1222_0222_1222, 0x0101_2222_2222_2222, 0x0111_2011_2201_2220]

/-- ANCHOR2 (41_lookup_tables.md R90). -/
def anchor2 : List Nat :=
    [15, 15, 15, 15, 15, 15, 15, 15, 15, 15, 15, 15, 15, 15, 15, 15]
    ++ [15, 2, 8, 2, 2, 8, 8, 15, 2, 8, 2, 2, 8, 8, 2, 2]
    ++ [15, 15, 6, 8, 2, 8, 15, 15, 2, 8, 2, 2, 2, 15, 15, 6]
    ++ [6, 2, 6, 8, 15, 15, 2, 2, 15, 15, 15, 15, 15, 2, 2, 15]

/-- ANCHOR3_1 (41_lookup_tables.md R90). -/
def anchor3First : List Nat :=
    [3, 3, 15, 15, 8, 3, 15, 15, 8, 8, 6, 6, 6, 5, 3, 3]
    ++ [3, 3, 8, 15, 3, 3, 6, 10, 5, 8, 8, 6, 8, 5, 15, 15]
    ++ [8, 15, 3, 5, 6, 10, 8, 15, 15, 3, 15, 5, 15, 15, 15, 15]
    ++ [3, 15, 5, 5, 5, 8, 5, 10, 5, 10, 8, 13, 15, 12, 3, 3]

/-- ANCHOR3_2 (41_lookup_tables.md R90). -/
def anchor3Second : List Nat :=
    [15, 8, 8, 3, 15, 15, 3, 8, 15, 15, 15, 15, 15, 15, 15, 8]
    ++ [15, 8, 15, 3, 15, 8, 15, 8, 3, 15, 6, 10, 15, 15, 10, 8]
    ++ [15, 3, 15, 10, 10, 8, 9, 10, 6, 15, 8, 15, 3, 6, 6, 8]
    ++ [15, 3, 15, 15, 15, 15, 15, 15, 15, 15, 15, 15, 3, 15, 15, 8]

/-- Digit `i` of a partition row: the subset id of texel `i`. -/
def rowDigit (row i : Nat) : Nat := (row >>> (4 * (15 - i))) % 16

/-- `Partition(ns, p, i)` (41_lookup_tables.md R86): one subset needs no table. -/
def partition (ns p i : Nat) : Nat :=
  match ns with
  | 2 => rowDigit (partition2Rows.getD p 0) i
  | 3 => rowDigit (partition3Rows.getD p 0) i
  | _ => 0

/-- `Anchor(ns, p, s)` (41_lookup_tables.md R89): subset 0's anchor is always texel 0. -/
def anchor (ns p s : Nat) : Nat :=
  match ns, s with
  | 2, 1 => anchor2.getD p 0
  | 3, 1 => anchor3First.getD p 0
  | 3, 2 => anchor3Second.getD p 0
  | _, _ => 0

/-- Texel `i` is the anchor of its own subset (41_lookup_tables.md R89, R94). -/
def isAnchor (ns p i : Nat) : Bool := i == anchor ns p (partition ns p i)

/-- The width of texel `i`'s field in an index plane of element width `w` (30_encoding.md R66). -/
def indexWidth (ns p w i : Nat) : Nat := if isAnchor ns p i then w - 1 else w

/-- The sixteen field widths of an index plane, in texel order (30_encoding.md R66). -/
def indexWidths (ns p w : Nat) : List Nat := (List.range 16).map (indexWidth ns p w)

/-- WEIGHTS2 (41_lookup_tables.md R92). -/
def weights2 : List Nat := [0, 21, 43, 64]

/-- WEIGHTS3 (41_lookup_tables.md R92). -/
def weights3 : List Nat := [0, 9, 18, 27, 37, 46, 55, 64]

/-- WEIGHTS4 (41_lookup_tables.md R92). -/
def weights4 : List Nat := [0, 4, 9, 13, 17, 21, 26, 30, 34, 38, 43, 47, 51, 55, 60, 64]

/-- The weight table of an index width (44_interpolator.md R115); no width but 2, 3 and 4 occurs. -/
def weightTable (w : Nat) : List Nat :=
  match w with
  | 2 => weights2
  | 3 => weights3
  | 4 => weights4
  | _ => []

/-- `weight(W, k)` (41_lookup_tables.md R94). -/
def weight (w k : Nat) : Nat := (weightTable w).getD k 0

/-- `bits(m)`, the bit budget of a descriptor (41_lookup_tables.md R85). -/
def ModeDescriptor.bits (d : ModeDescriptor) (m : Mode) : Nat :=
  (m.val + 1) + d.partitionBits + d.rotationBits + d.indexSelectionBits
    + 3 * d.subsets * 2 * d.colorBits
    + d.subsets * 2 * d.alphaBits
    + d.subsets * (2 * d.endpointPbits + d.sharedPbits)
    + (16 * d.indexBits - d.subsets)
    + (if d.index2Bits > 0 then 16 * d.index2Bits - 1 else 0)

end Sys2Proof
end

