-- ==== Sys2Proof/Syntax.lean ====
section
/-! DEFINITION. The instructions: one constructor per row of opcode_table.json. The eight modes of a block carry the
items of the assembler syntax (30_encoding.md R73): the raw colour, alpha and p-bit fields in extraction order, and the index
values of texels 0 to 15, anchors included. The four command words (30_encoding.md R72) carry nothing. -/

namespace Sys2Proof

/-- One instruction of the core. A field is an unbounded non-negative integer (00_scope.md R13); that it fits the field
of its mode is checked in WellFormed.lean. `r`, `g`, `b`, `a` list the raw fields of one channel as subset 0 endpoint 0,
subset 0 endpoint 1, subset 1 endpoint 0, and so on. -/
inductive Instr where
  /-- bc7.m0 (45_block_decoder.md R135): six private p-bits `p`, one 3-bit index plane. -/
  | bc7m0 (part : Nat) (r g b p idx : List Nat)
  /-- bc7.m1 (R136): `p` holds the two shared p-bits, one per subset. -/
  | bc7m1 (part : Nat) (r g b p idx : List Nat)
  /-- bc7.m2 (R137): no p-bits. -/
  | bc7m2 (part : Nat) (r g b idx : List Nat)
  /-- bc7.m3 (R138): four private p-bits. -/
  | bc7m3 (part : Nat) (r g b p idx : List Nat)
  /-- bc7.m4 (R139): rotation, index-selection bit, a 2-bit primary and a 3-bit secondary plane. -/
  | bc7m4 (rot isb : Nat) (r g b a idx idx2 : List Nat)
  /-- bc7.m5 (R140): rotation, two 2-bit planes. -/
  | bc7m5 (rot : Nat) (r g b a idx idx2 : List Nat)
  /-- bc7.m6 (R141): two private p-bits, one 4-bit plane. -/
  | bc7m6 (r g b a p idx : List Nat)
  /-- bc7.m7 (R142): two subsets with alpha, four private p-bits. -/
  | bc7m7 (part : Nat) (r g b a p idx : List Nat)
  /-- bc7.reserved (60_exceptions.md R166): block byte 0 is 0; `ignored` is blk[127:8], which nothing examines. -/
  | bc7Reserved (ignored : BitVec 120)
  /-- NOP (45_block_decoder.md R122), command word 0. -/
  | nop
  /-- DECODE (R123), command word 1. -/
  | decode
  /-- MODEQ (R124), command word 2. -/
  | modeq
  /-- CMD.RESERVED (60_exceptions.md R168), command word 3. -/
  | cmdReserved
  deriving DecidableEq, Repr

end Sys2Proof
end

