-- ==== Sys2Proof/WellFormed.lean ====
section
/-! DEFINITION. Which instructions have an encoding (30_encoding.md R73): every item of the mode present, every value
inside its field, every anchor index below half the index range. The widths are those of the mode rules
45_block_decoder.md R135 to R142. -/

namespace Sys2Proof

/-- Exactly `n` fields of `bits` bits each. -/
def fieldsFit (bits n : Nat) (xs : List Nat) : Bool :=
  xs.length == n && xs.all fun x => decide (x < 2 ^ bits)

/-- Sixteen index values, each inside its own field of the plane (30_encoding.md R66, R73). -/
def planeFits (ns part w : Nat) (xs : List Nat) : Bool :=
  xs.length == 16 && (List.range 16).all fun i => decide (xs.getD i 0 < 2 ^ indexWidth ns part w i)

/-- The instruction has an encoding (30_encoding.md R73). -/
def Instr.wellFormed (i : Instr) : Bool :=
  match i with
  | .bc7m0 part r g b p idx =>
    decide (part < 16) && fieldsFit 4 6 r && fieldsFit 4 6 g && fieldsFit 4 6 b && fieldsFit 1 6 p
      && planeFits 3 part 3 idx
  | .bc7m1 part r g b p idx =>
    decide (part < 64) && fieldsFit 6 4 r && fieldsFit 6 4 g && fieldsFit 6 4 b && fieldsFit 1 2 p
      && planeFits 2 part 3 idx
  | .bc7m2 part r g b idx =>
    decide (part < 64) && fieldsFit 5 6 r && fieldsFit 5 6 g && fieldsFit 5 6 b && planeFits 3 part 2 idx
  | .bc7m3 part r g b p idx =>
    decide (part < 64) && fieldsFit 7 4 r && fieldsFit 7 4 g && fieldsFit 7 4 b && fieldsFit 1 4 p
      && planeFits 2 part 2 idx
  | .bc7m4 rot isb r g b a idx idx2 =>
    decide (rot < 4) && decide (isb < 2) && fieldsFit 5 2 r && fieldsFit 5 2 g && fieldsFit 5 2 b && fieldsFit 6 2 a
      && planeFits 1 0 2 idx && planeFits 1 0 3 idx2
  | .bc7m5 rot r g b a idx idx2 =>
    decide (rot < 4) && fieldsFit 7 2 r && fieldsFit 7 2 g && fieldsFit 7 2 b && fieldsFit 8 2 a
      && planeFits 1 0 2 idx && planeFits 1 0 2 idx2
  | .bc7m6 r g b a p idx =>
    fieldsFit 7 2 r && fieldsFit 7 2 g && fieldsFit 7 2 b && fieldsFit 7 2 a && fieldsFit 1 2 p && planeFits 1 0 4 idx
  | .bc7m7 part r g b a p idx =>
    decide (part < 64) && fieldsFit 5 4 r && fieldsFit 5 4 g && fieldsFit 5 4 b && fieldsFit 5 4 a && fieldsFit 1 4 p
      && planeFits 2 part 2 idx
  | .bc7Reserved _ => true
  | .nop => true
  | .decode => true
  | .modeq => true
  | .cmdReserved => true

end Sys2Proof
end

