-- ==== Sys2Proof/Decode.lean ====
section
/-! DEFINITION. The decoder, total on any bytes, and after it the encoder. A 16-byte record is a block, read at the bit
ranges of 30_encoding.md R58 to R65; a 4-byte record is a command word (R72). -/

namespace Sys2Proof

/-! ### Bit fields -/

/-- `blk[p+n-1 : p]`, the n-bit field at stream position `p` (20_memory.md R39); 0 when `n` is 0. -/
def bitsAt (blk : Block) (p n : Nat) : Nat := (blk.toNat >>> p) % 2 ^ n

/-- `blk[hi:lo]` (00_scope.md R12). -/
def field (blk : Block) (hi lo : Nat) : Nat := bitsAt blk lo (hi + 1 - lo)

/-- Consecutive fields of the given widths from position `p` on. -/
def fieldsAt (blk : Block) (widths : List Nat) (p : Nat) : List Nat :=
  match widths with
  | [] => []
  | w :: ws => bitsAt blk p w :: fieldsAt blk ws (p + w)

/-- An index plane of element width `w` that starts at bit `start` (30_encoding.md R66, R67): sixteen fields one after
the other, an anchor's one bit short and zero-extended. -/
def planeAt (blk : Block) (ns part w start : Nat) : List Nat := fieldsAt blk (indexWidths ns part w) start

/-! ### Byte order -/

/-- The 16 bytes of a record as one little-endian integer (20_memory.md R38, R40). -/
def natOfBytes (bytes : List Byte) : Nat :=
  match bytes with
  | [] => 0
  | b :: bs => b.toNat + 256 * natOfBytes bs

/-- The `n` low bytes of a value, least significant first (20_memory.md R40). -/
def bytesOfNat (n v : Nat) : List Byte :=
  match n with
  | 0 => []
  | k + 1 => BitVec.ofNat 8 v :: bytesOfNat k (v / 256)

/-! ### The modes of a block -/

/-- The mode 0 block, field by field at the bit ranges of 30_encoding.md R58. -/
def decodeMode0 (blk : Block) : Instr :=
  let part := field blk 4 1
  .bc7m0 part
    [field blk 8 5, field blk 12 9, field blk 16 13, field blk 20 17, field blk 24 21, field blk 28 25]
    [field blk 32 29, field blk 36 33, field blk 40 37, field blk 44 41, field blk 48 45, field blk 52 49]
    [field blk 56 53, field blk 60 57, field blk 64 61, field blk 68 65, field blk 72 69, field blk 76 73]
    [field blk 77 77, field blk 78 78, field blk 79 79, field blk 80 80, field blk 81 81, field blk 82 82]
    (planeAt blk 3 part 3 83)

/-- The mode 1 block, field by field at the bit ranges of 30_encoding.md R59. -/
def decodeMode1 (blk : Block) : Instr :=
  let part := field blk 7 2
  .bc7m1 part
    [field blk 13 8, field blk 19 14, field blk 25 20, field blk 31 26]
    [field blk 37 32, field blk 43 38, field blk 49 44, field blk 55 50]
    [field blk 61 56, field blk 67 62, field blk 73 68, field blk 79 74]
    [field blk 80 80, field blk 81 81]
    (planeAt blk 2 part 3 82)

/-- The mode 2 block, field by field at the bit ranges of 30_encoding.md R60. -/
def decodeMode2 (blk : Block) : Instr :=
  let part := field blk 8 3
  .bc7m2 part
    [field blk 13 9, field blk 18 14, field blk 23 19, field blk 28 24, field blk 33 29, field blk 38 34]
    [field blk 43 39, field blk 48 44, field blk 53 49, field blk 58 54, field blk 63 59, field blk 68 64]
    [field blk 73 69, field blk 78 74, field blk 83 79, field blk 88 84, field blk 93 89, field blk 98 94]
    (planeAt blk 3 part 2 99)

/-- The mode 3 block, field by field at the bit ranges of 30_encoding.md R61. -/
def decodeMode3 (blk : Block) : Instr :=
  let part := field blk 9 4
  .bc7m3 part
    [field blk 16 10, field blk 23 17, field blk 30 24, field blk 37 31]
    [field blk 44 38, field blk 51 45, field blk 58 52, field blk 65 59]
    [field blk 72 66, field blk 79 73, field blk 86 80, field blk 93 87]
    [field blk 94 94, field blk 95 95, field blk 96 96, field blk 97 97]
    (planeAt blk 2 part 2 98)

/-- The mode 4 block, field by field at the bit ranges of 30_encoding.md R62. -/
def decodeMode4 (blk : Block) : Instr :=
  .bc7m4 (field blk 6 5) (field blk 7 7)
    [field blk 12 8, field blk 17 13]
    [field blk 22 18, field blk 27 23]
    [field blk 32 28, field blk 37 33]
    [field blk 43 38, field blk 49 44]
    (planeAt blk 1 0 2 50) (planeAt blk 1 0 3 81)

/-- The mode 5 block, field by field at the bit ranges of 30_encoding.md R63. -/
def decodeMode5 (blk : Block) : Instr :=
  .bc7m5 (field blk 7 6)
    [field blk 14 8, field blk 21 15]
    [field blk 28 22, field blk 35 29]
    [field blk 42 36, field blk 49 43]
    [field blk 57 50, field blk 65 58]
    (planeAt blk 1 0 2 66) (planeAt blk 1 0 2 97)

/-- The mode 6 block, field by field at the bit ranges of 30_encoding.md R64. -/
def decodeMode6 (blk : Block) : Instr :=
  .bc7m6 
    [field blk 13 7, field blk 20 14]
    [field blk 27 21, field blk 34 28]
    [field blk 41 35, field blk 48 42]
    [field blk 55 49, field blk 62 56]
    [field blk 63 63, field blk 64 64]
    (planeAt blk 1 0 4 65)

/-- The mode 7 block, field by field at the bit ranges of 30_encoding.md R65. -/
def decodeMode7 (blk : Block) : Instr :=
  let part := field blk 13 8
  .bc7m7 part
    [field blk 18 14, field blk 23 19, field blk 28 24, field blk 33 29]
    [field blk 38 34, field blk 43 39, field blk 48 44, field blk 53 49]
    [field blk 58 54, field blk 63 59, field blk 68 64, field blk 73 69]
    [field blk 78 74, field blk 83 79, field blk 88 84, field blk 93 89]
    [field blk 94 94, field blk 95 95, field blk 96 96, field blk 97 97]
    (planeAt blk 2 part 2 98)

/-- The selector test of 30_encoding.md R57: the mask 2^(m+1) - 1 over blk[7:0] against the match 2^m. -/
def matchesMode (blk : Block) (m : Nat) : Bool :=
  (field blk 7 0) &&& (2 ^ (m + 1) - 1) == 2 ^ m

/-- The instruction a block is (30_encoding.md R69); a block that matches no mode has byte 0 equal to 0 and is the one
reserved encoding (R70). -/
def decodeBlock (blk : Block) : Instr :=
  if matchesMode blk 0 then decodeMode0 blk
  else if matchesMode blk 1 then decodeMode1 blk
  else if matchesMode blk 2 then decodeMode2 blk
  else if matchesMode blk 3 then decodeMode3 blk
  else if matchesMode blk 4 then decodeMode4 blk
  else if matchesMode blk 5 then decodeMode5 blk
  else if matchesMode blk 6 then decodeMode6 blk
  else if matchesMode blk 7 then decodeMode7 blk
  else .bc7Reserved (BitVec.ofNat 120 (field blk 127 8))

/-! ### Command words and records of bytes -/

/-- Why a record of bytes is no instruction. -/
inductive DecodeError where
  /-- A command word with one of bits 31:2 set (10_state.md R24). -/
  | commandHighBits (w : Word)
  /-- A record that is neither a 16-byte block nor a 4-byte command word. -/
  | noSuchLength (bytes : Nat)
  deriving DecidableEq, Repr

/-- The command a CMD word starts (30_encoding.md R72, mask 0xFFFFFFFF). -/
def decodeCommand (w : Word) : Except DecodeError Instr :=
  if w = 0 then .ok .nop
  else if w = 1 then .ok .decode
  else if w = 2 then .ok .modeq
  else if w = 3 then .ok .cmdReserved
  else .error (.commandHighBits w)

/-- The decoder on any bytes. -/
def decodeBytes (bytes : List Byte) : Except DecodeError Instr :=
  if bytes.length = 16 then .ok (decodeBlock (BitVec.ofNat 128 (natOfBytes bytes)))
  else if bytes.length = 4 then decodeCommand (BitVec.ofNat 32 (natOfBytes bytes))
  else .error (.noSuchLength bytes.length)

/-- The decoder on an instruction numbered as opcode_table.json numbers it: its `cmd` rows are 32 bits wide, its `block`
rows give the low bits of a 128-bit block, whose bits above `nbits` are 0. -/
def decodeTableWord (nbits w : Nat) : Option Instr :=
  if nbits = 32 then (decodeBytes (bytesOfNat 4 w)).toOption
  else if nbits ≤ 128 then (decodeBytes (bytesOfNat 16 (w % 2 ^ nbits))).toOption
  else none

/-! ### The encoder -/

/-- Writes each (width, value) at the next position, least significant bit first (30_encoding.md R73). -/
def packFields (fields : List (Nat × Nat)) : Nat :=
  match fields with
  | [] => 0
  | (w, v) :: fs => v % 2 ^ w + 2 ^ w * packFields fs

/-- Fields of one width. -/
def fieldsOf (w : Nat) (xs : List Nat) : List (Nat × Nat) := xs.map fun x => (w, x)

/-- The fields of an index plane (30_encoding.md R66). -/
def planeFields (ns part w : Nat) (xs : List Nat) : List (Nat × Nat) := (indexWidths ns part w).zip xs

/-- The selector of mode `m`: `m` zero bits and then a one (30_encoding.md R57). -/
def selector (m : Nat) : Nat × Nat := (m + 1, 2 ^ m)

/-- Every field of a block instruction in wire order (42_field_extractor.md R96); a command word is one 32-bit field. -/
def wireFields (i : Instr) : List (Nat × Nat) :=
  match i with
  | .bc7m0 part r g b p idx =>
    selector 0 :: (4, part) :: fieldsOf 4 r ++ fieldsOf 4 g ++ fieldsOf 4 b ++ fieldsOf 1 p ++ planeFields 3 part 3 idx
  | .bc7m1 part r g b p idx =>
    selector 1 :: (6, part) :: fieldsOf 6 r ++ fieldsOf 6 g ++ fieldsOf 6 b ++ fieldsOf 1 p ++ planeFields 2 part 3 idx
  | .bc7m2 part r g b idx =>
    selector 2 :: (6, part) :: fieldsOf 5 r ++ fieldsOf 5 g ++ fieldsOf 5 b ++ planeFields 3 part 2 idx
  | .bc7m3 part r g b p idx =>
    selector 3 :: (6, part) :: fieldsOf 7 r ++ fieldsOf 7 g ++ fieldsOf 7 b ++ fieldsOf 1 p ++ planeFields 2 part 2 idx
  | .bc7m4 rot isb r g b a idx idx2 =>
    selector 4 :: (2, rot) :: (1, isb) :: fieldsOf 5 r ++ fieldsOf 5 g ++ fieldsOf 5 b ++ fieldsOf 6 a
      ++ planeFields 1 0 2 idx ++ planeFields 1 0 3 idx2
  | .bc7m5 rot r g b a idx idx2 =>
    selector 5 :: (2, rot) :: fieldsOf 7 r ++ fieldsOf 7 g ++ fieldsOf 7 b ++ fieldsOf 8 a
      ++ planeFields 1 0 2 idx ++ planeFields 1 0 2 idx2
  | .bc7m6 r g b a p idx =>
    selector 6 :: fieldsOf 7 r ++ fieldsOf 7 g ++ fieldsOf 7 b ++ fieldsOf 7 a ++ fieldsOf 1 p ++ planeFields 1 0 4 idx
  | .bc7m7 part r g b a p idx =>
    selector 7 :: (6, part) :: fieldsOf 5 r ++ fieldsOf 5 g ++ fieldsOf 5 b ++ fieldsOf 5 a ++ fieldsOf 1 p
      ++ planeFields 2 part 2 idx
  | .bc7Reserved ignored => [(8, 0), (120, ignored.toNat)]
  | .nop => [(32, 0)]
  | .decode => [(32, 1)]
  | .modeq => [(32, 2)]
  | .cmdReserved => [(32, 3)]

/-- How many bytes an instruction takes: a block 16 (30_encoding.md R55), a command word 4 (R72). -/
def encodedLength (i : Instr) : Nat :=
  match i with
  | .bc7m0 _ _ _ _ _ _ => 16
  | .bc7m1 _ _ _ _ _ _ => 16
  | .bc7m2 _ _ _ _ _ => 16
  | .bc7m3 _ _ _ _ _ _ => 16
  | .bc7m4 _ _ _ _ _ _ _ _ => 16
  | .bc7m5 _ _ _ _ _ _ _ => 16
  | .bc7m6 _ _ _ _ _ _ => 16
  | .bc7m7 _ _ _ _ _ _ _ => 16
  | .bc7Reserved _ => 16
  | .nop => 4
  | .decode => 4
  | .modeq => 4
  | .cmdReserved => 4

/-- The encoder: the bytes of a well-formed instruction, in address order. -/
def encode (i : Instr) : List Byte := bytesOfNat (encodedLength i) (packFields (wireFields i))

/-- The block an instruction of the block format is. -/
def encodeBlock (i : Instr) : Block := BitVec.ofNat 128 (packFields (wireFields i))

/-- The pseudo-instruction `solid r,g,b,a` (30_encoding.md R74), well-formed only when the four bytes agree in their low
bit. -/
def solid (r g b a : Byte) : Option Instr :=
  let q := r.toNat % 2
  if g.toNat % 2 = q ∧ b.toNat % 2 = q ∧ a.toNat % 2 = q then
    some (.bc7m6 [r.toNat / 2, r.toNat / 2] [g.toNat / 2, g.toNat / 2] [b.toNat / 2, b.toNat / 2]
      [a.toNat / 2, a.toNat / 2] [q, q] (List.replicate 16 0))
  else none

end Sys2Proof
end

