-- ==== Sys2Proof/Machine/State.lean ====
section
/-! DEFINITION. The state of the machine as plain data: the core's interface registers (10_state.md R22 to R26), host
memory (20_memory.md R37), and the host agent's queue of accesses. The transient datapath state of 10_state.md R29 to R33
does not exist between commands (R36); its records stand in Operands.lean and Datapath.lean. -/

namespace Sys2Proof.Machine

/-- One register BLKk (10_state.md R23): its 32 bits, and whether the host has written them since reset (R36: "no value" until
then). While it has not, what a read or a command meets is a free value (log entry 16). -/
structure BlkReg where
  value : Word
  held  : Bool
  deriving DecidableEq, Repr

/-- The TEX register file TEX[0] to TEX[15] (10_state.md R26). -/
abbrev TexFile := Vector Word 16

/-- Host memory: (address, byte) pairs, addresses strictly rising. An address it does not list has been given no byte. -/
abbrev Memory := List Host.Cell

/-- How a host call names its format: by tag, or by the API's numeric tag value (46_host_interface.md R144). -/
inductive FormatArg where
  | tag (t : FormatTag)
  | code (n : Nat)
  deriving DecidableEq, Repr

/-- The arguments of `decode` (46_host_interface.md R143). -/
structure DecodeArgs where
  format  : FormatArg
  width   : Nat
  height  : Nat
  src     : Nat
  srcSize : Nat
  dst     : Nat
  dstSize : Nat
  deriving DecidableEq, Repr

/-- The arguments of `block_mode` (46_host_interface.md R159). -/
structure BlockModeArgs where
  src        : Nat
  srcSize    : Nat
  blockX     : Nat
  blockY     : Nat
  blockWidth : Nat
  deriving DecidableEq, Repr

/-- One thing the host or the platform does next: a register access (30_encoding.md R75), a host-memory access
(20_memory.md R44), a reset (70_reset_and_hazards.md R183), or one whole call of the three host functions
(46_host_interface.md R143). -/
inductive HostAccess where
  /-- A register write of `bits` bits at `offset`. -/
  | regWrite (bits offset : Nat) (data : Word)
  /-- A register read of `bits` bits at `offset`. -/
  | regRead (bits offset : Nat)
  /-- `mw`: bytes stored at rising addresses. -/
  | memWrite (addr : Nat) (bytes : List Byte)
  /-- `mr`: one byte read. -/
  | memRead (addr : Nat)
  /-- The reset event, from outside the core. -/
  | platformReset
  | outputSize (format : FormatArg) (width height : Nat)
  | decodeImage (args : DecodeArgs)
  | blockMode (args : BlockModeArgs)
  deriving DecidableEq, Repr

/-- What a host call returned (46_host_interface.md R145, R158, R159). -/
inductive CallResult where
  | size (n : Nat)
  | decode (success : Bool)
  | blockMode (value : Int)
  deriving DecidableEq, Repr

/-- The machine: one core, host memory and the host. -/
structure State where
  /-- BLK0 to BLK3 (10_state.md R23). -/
  blk0 : BlkReg
  blk1 : BlkReg
  blk2 : BlkReg
  blk3 : BlkReg
  /-- STATUS (10_state.md R25). -/
  status : Word
  /-- TEX[0..15] (10_state.md R26). -/
  tex : TexFile
  /-- Host memory: source span and destination buffer (20_memory.md R37). -/
  mem : Memory
  /-- What the host does next, oldest first: the order in which accesses take effect (20_memory.md R49). -/
  pending : List HostAccess
  /-- The host's copy of the value its last register or memory read returned; none before the first. -/
  readData : Option Word
  /-- What the last host call returned; none before the first. -/
  callResult : Option CallResult
  /-- The model's own counter of free values used (46_host_interface.md R158, "any value"; 10_state.md R27, "an unspecified
  word"). -/
  freeUsed : Nat
  deriving DecidableEq, Repr

/-- Why a run stops with a fault. (The three faults of 60_exceptions.md R165 are no stops: each is a next state with
STATUS written.) -/
inductive Fault where
  /-- A host-memory read of an address that was given no byte: raised by `mr`, `decode` and `block_mode`. Safe: the spec
  gives the source span to the caller (46_host_interface.md R148) and no byte is invented. -/
  | hostByteUnset (addr : Nat)
  deriving DecidableEq, Repr

/-- Why an access or instruction has no meaning. Every one but `notModelled` is a refusal the spec itself states
(60_exceptions.md R172), so each is safe. -/
inductive Refusal where
  /-- An instruction whose meaning the model lacks; no arm of exec answers so. Safe. -/
  | notModelled (mnemonic : String)
  /-- A CMD write with one of bits 31:2 set (R172 a), raised by a CMD write. Safe. -/
  | commandHighBits (w : Word)
  /-- A register access that is not 32 bits wide (R172 b), raised by register accesses. Safe. -/
  | accessWidth (bits : Nat)
  /-- A register access at an offset that is no multiple of 4 (R172 b). Safe. -/
  | misaligned (offset : Nat)
  /-- A register access at the reserved offsets 0x18 and 0x1C (R172 b). Safe. -/
  | reservedOffset (offset : Nat)
  /-- A register access at offset 0x60 or above (R172 b). Safe. -/
  | beyondRegisterBlock (offset : Nat)
  /-- A call with a width, a size or a size product that does not fit SIZE_BITS (46_host_interface.md R146). Safe. -/
  | sizeTooWide
  /-- A `decode` of width or height 0 (46_host_interface.md R147). Safe. -/
  | emptyImage
  /-- A `decode` whose destination is smaller than `output_size` (46_host_interface.md R153). Safe. -/
  | destinationTooSmall
  /-- A `decode` during which a byte of the source span changes (46_host_interface.md R160). Safe. -/
  | sourceSpanChanged
  deriving DecidableEq, Repr

/-- A BLK register that holds no value (10_state.md R36). Its bits are unobservable; DESIGN CHOICE 0, log entry 2. -/
def BlkReg.empty : BlkReg := ⟨0, false⟩

/-- The machine right after reset (10_state.md R36): STATUS 0, BLK and TEX without a value, nothing pending and nothing
listed in host memory. The bits behind "no value" are DESIGN CHOICE 0 (log entries 2 and 3). -/
def State.reset : State where
  blk0 := BlkReg.empty
  blk1 := BlkReg.empty
  blk2 := BlkReg.empty
  blk3 := BlkReg.empty
  status := 0
  tex := Vector.replicate 16 0
  mem := []
  pending := []
  readData := none
  callResult := none
  freeUsed := 0

end Sys2Proof.Machine
end

