-- ==== Sys2Proof/Machine/Flags.lean ====
section
/-! DEFINITION. The fields of STATUS (10_state.md R25), the values commands write there, and the three faults with their
cause codes (60_exceptions.md R165). The core has no arithmetic condition codes (10_state.md R21). -/

namespace Sys2Proof.Machine

/-- STATUS put together from its fields (10_state.md R25): VALID bit 0, FAULT bit 1, FCAUSE bits 3:2, MODE bits 6:4,
MODE_VALID bit 7, bits 31:8 zero. -/
def statusWord (valid fault : Bool) (fcause : BitVec 2) (mode : BitVec 3) (modeValid : Bool) : Word :=
  0#24 ++ BitVec.ofBool modeValid ++ mode ++ fcause ++ BitVec.ofBool fault ++ BitVec.ofBool valid

/-- STATUS.VALID, bit 0. -/
def statusValid (w : Word) : Bool := w.getLsbD 0

/-- STATUS.FAULT, bit 1. -/
def statusFault (w : Word) : Bool := w.getLsbD 1

/-- STATUS.FCAUSE, bits 3:2. -/
def statusFcause (w : Word) : BitVec 2 := w.extractLsb' 2 2

/-- STATUS.MODE, bits 6:4. -/
def statusMode (w : Word) : BitVec 3 := w.extractLsb' 4 3

/-- STATUS.MODE_VALID, bit 7. -/
def statusModeValid (w : Word) : Bool := w.getLsbD 7

/-- STATUS bits 31:8, which read as 0. -/
def statusReserved (w : Word) : BitVec 24 := w.extractLsb' 8 24

/-- The mode as the 3-bit field MODE holds it. -/
def modeBits (m : Mode) : BitVec 3 := BitVec.ofNat 3 m.val

/-- STATUS once the mode is known and nothing else (45_block_decoder.md R123, R124): 0x80 | (m << 4). -/
def modeKnownStatus (m : Mode) : Word := statusWord false false 0 (modeBits m) true

/-- STATUS after a successful DECODE (45_block_decoder.md R123): 0x81 | (m << 4). -/
def decodedStatus (m : Mode) : Word := statusWord true false 0 (modeBits m) true

/-- The three faults of the core (60_exceptions.md R165); only BitBudget knows the mode. -/
inductive CoreFault where
  | reservedMode
  | bitBudget (m : Mode)
  | illegalCommand
  deriving DecidableEq, Repr

/-- FCAUSE of a fault (60_exceptions.md R165). -/
def CoreFault.code (f : CoreFault) : BitVec 2 :=
  match f with
  | .reservedMode => 1
  | .bitBudget _ => 2
  | .illegalCommand => 3

/-- The mode a fault records, when it is known (60_exceptions.md R169). -/
def CoreFault.mode (f : CoreFault) : Option Mode :=
  match f with
  | .reservedMode => none
  | .bitBudget m => some m
  | .illegalCommand => none

/-- STATUS after fault entry (60_exceptions.md R169). -/
def faultStatus (f : CoreFault) : Word :=
  statusWord false true f.code ((f.mode.map modeBits).getD 0) f.mode.isSome

/-- The legal combinations of 10_state.md R25, with the reserved bits read as 0. -/
def legalStatus (w : Word) : Bool :=
  (statusReserved w == 0)
    && (!statusValid w || (!statusFault w && statusModeValid w))
    && (statusFault w || statusFcause w == 0)
    && (!(statusFcause w == 1 || statusFcause w == 3) || !statusModeValid w)
    && (statusModeValid w || statusMode w == 0)

end Sys2Proof.Machine
end

