-- ==== Sys2Proof/Machine/Ops.lean ====
section
/-! DEFINITION. The named operations on the state: the registers, taking a fault and leaving it, and host memory one byte
at a time. -/

namespace Sys2Proof.Machine

/-- Goes on after a next outcome; a fault or a refusal ends the whole. -/
def andThen {σ τ : Type} (o : Host.Outcome σ Fault Refusal) (k : σ → Host.Outcome τ Fault Refusal) :
    Host.Outcome τ Fault Refusal :=
  match o with
  | .next x => k x
  | .fault r => .fault r
  | .refused r => .refused r

/-! ### Registers of the core -/

/-- The register BLKk. -/
def getBlk (s : State) (k : Fin 4) : BlkReg :=
  match k with
  | 0 => s.blk0
  | 1 => s.blk1
  | 2 => s.blk2
  | 3 => s.blk3

/-- The host writes BLKk: the value is stored and the register holds one from now on (10_state.md R23). -/
def setBlk (s : State) (k : Fin 4) (v : Word) : State :=
  match k with
  | 0 => { s with blk0 := ⟨v, true⟩ }
  | 1 => { s with blk1 := ⟨v, true⟩ }
  | 2 => { s with blk2 := ⟨v, true⟩ }
  | 3 => { s with blk3 := ⟨v, true⟩ }

/-- The block register `blk` = {BLK3, BLK2, BLK1, BLK0} (10_state.md R23). -/
def blkValue (s : State) : Block :=
  s.blk3.value ++ s.blk2.value ++ s.blk1.value ++ s.blk0.value

/-- Every BLK word holds a value, as a DECODE of a defined block needs (70_reset_and_hazards.md R186). -/
def blkHeld (s : State) : Bool := s.blk0.held && s.blk1.held && s.blk2.held && s.blk3.held

/-- BLKk as a read or a command meets it: the last value written, or a free value while there is none (log entry 16). -/
def operandWord (s : State) (k : Fin 4) : Word :=
  if (getBlk s k).held then (getBlk s k).value else Config.freeBlkWord s.freeUsed k

/-- The block a DECODE decodes: `blk` of 10_state.md R23, each word as `operandWord` gives it. -/
def operandBlock (s : State) : Block :=
  operandWord s 3 ++ operandWord s 2 ++ operandWord s 1 ++ operandWord s 0

/-- After a use of free values the counter moves on, so that the next use has values of its own. -/
def spendFree (used : Bool) (s : State) : State :=
  { s with freeUsed := if used then s.freeUsed + 1 else s.freeUsed }

/-- The core writes STATUS. -/
def setStatus (s : State) (w : Word) : State := { s with status := w }

/-- The core writes all sixteen TEX registers (10_state.md R26). -/
def setTex (s : State) (t : TexFile) : State := { s with tex := t }

/-- The start of a DECODE, a MODEQ or a reserved command: STATUS becomes 0, which is also the only way out of a recorded
fault (60_exceptions.md R170: there is no return-from-trap). -/
def beginCommand (s : State) : State := setStatus s 0

/-- Fault entry (60_exceptions.md R169): STATUS records the fault and nothing else changes. -/
def takeFault (f : CoreFault) (s : State) : State := setStatus s (faultStatus f)

/-- The reset of the core (10_state.md R36, 70_reset_and_hazards.md R183): BLK and TEX hold no value, STATUS is 0. Host
memory and the host itself are not part of the core. -/
def resetCore (s : State) : State :=
  { s with
    blk0 := BlkReg.empty
    blk1 := BlkReg.empty
    blk2 := BlkReg.empty
    blk3 := BlkReg.empty
    status := 0
    tex := Vector.replicate 16 0 }

/-! ### Host memory -/

/-- The addresses rise strictly: the one canonical form. (An unlisted address reads as no byte, so no listed byte can
equal what it would read as.) -/
def Memory.wf (m : Memory) : Bool :=
  match m with
  | [] => true
  | c :: rest => rest.all (fun d => decide (c.1 < d.1)) && Memory.wf rest

/-- The byte at an address; none where no byte was ever given (log entry 4). -/
def Memory.read (m : Memory) (a : Nat) : Option Byte :=
  match m with
  | [] => none
  | c :: rest => if c.1 = a then some c.2 else Memory.read rest a

/-- Stores one byte, keeping the addresses rising. -/
def Memory.write (m : Memory) (a : Nat) (v : Byte) : Memory :=
  match m with
  | [] => [(a, v)]
  | c :: rest =>
    if a < c.1 then (a, v) :: c :: rest
    else if c.1 = a then (a, v) :: rest
    else c :: Memory.write rest a v

/-- Stores bytes at rising addresses, one single-byte write each (20_memory.md R44). -/
def Memory.writeBytes (m : Memory) (a : Nat) (bytes : List Byte) : Memory :=
  match bytes with
  | [] => m
  | b :: bs => Memory.writeBytes (Memory.write m a b) (a + 1) bs

/-- The bytes at `a`, `a + 1`, ..., `n` of them, each absent or present. -/
def Memory.span (m : Memory) (a n : Nat) : List (Option Byte) := (List.range n).map fun j => Memory.read m (a + j)

/-- One single-byte read of host memory. -/
def readByte (m : Memory) (a : Nat) : Host.Outcome Byte Fault Refusal :=
  match Memory.read m a with
  | some b => .next b
  | none => .fault (.hostByteUnset a)

/-- `MemRead(a, n)`: n single-byte reads, assembled little-endian (00_scope.md R14, 20_memory.md R44). -/
def memRead (m : Memory) (a n : Nat) : Host.Outcome Nat Fault Refusal :=
  match n with
  | 0 => .next 0
  | k + 1 => andThen (readByte m a) fun b => andThen (memRead m (a + 1) k) fun v => .next (b.toNat + 256 * v)

/-- `MemWrite(a, 4, v)`: four single-byte writes, least significant byte first (46_host_interface.md R156). -/
def memWriteWord (m : Memory) (a : Nat) (v : Word) : Memory := Memory.writeBytes m a (bytesOfNat 4 v.toNat)

end Sys2Proof.Machine
end

