-- ==== Sys2Proof/Machine/Operands.lean ====
section
/-! DEFINITION. The operands of a DECODE: mode selection (45_block_decoder.md R125), the Bit Reader (40_bit_reader.md), the
Field Extractor (42_field_extractor.md) that reads the raw field set, the partition map (R126) and the choice of index
planes (R127). -/

namespace Sys2Proof.Machine

/-- `LowestSetBit`, scanned from bit 0 upward (45_block_decoder.md R125); none for a zero byte. -/
def lowestSetBit (b0 : Byte) : Option Mode := [0, 1, 2, 3, 4, 5, 6, 7].find? fun m => b0.getLsbD m.val

/-- Block byte 0, `blk[7:0]`. -/
def byte0 (blk : Block) : Byte := blk.extractLsb' 0 8

/-! ### The Bit Reader -/

/-- The Bit Reader state (10_state.md R29). -/
structure Reader where
  pos    : Nat
  budget : Nat
  err    : Bool
  deriving DecidableEq, Repr

/-- A value read with the reader after it, or the fault BitBudget with the reader it leaves. -/
inductive ReadResult (α : Type) where
  | value (v : α) (r : Reader)
  | bitBudget (r : Reader)
  deriving DecidableEq, Repr

/-- Goes on after a successful read; the first failure ends the command (40_bit_reader.md R80). -/
def ReadResult.bind {α β : Type} (x : ReadResult α) (k : α → Reader → ReadResult β) : ReadResult β :=
  match x with
  | .value v r => k v r
  | .bitBudget r => .bitBudget r

/-- The reader of a command once the mode is known (40_bit_reader.md R77). -/
def Reader.start (m : Mode) : Reader := ⟨m.val + 1, 128 - (m.val + 1), false⟩

/-- `ReadBits(n)` (40_bit_reader.md R78, R79, R80). -/
def readBits (blk : Block) (n : Nat) (r : Reader) : ReadResult Nat :=
  if r.err ∨ n > r.budget then .bitBudget { r with err := true }
  else if n = 0 then .value 0 r
  else .value (bitsAt blk r.pos n) ⟨r.pos + n, r.budget - n, false⟩

/-- Reads of the given widths one after the other. -/
def readMany (blk : Block) (widths : List Nat) (r : Reader) : ReadResult (List Nat) :=
  match widths with
  | [] => .value [] r
  | w :: ws =>
    (readBits blk w r).bind fun v r' => (readMany blk ws r').bind fun vs r'' => .value (v :: vs) r''

/-! ### The Field Extractor -/

/-- The raw field set (10_state.md R31), a record of fixed shape: each of `r`, `g`, `b`, `a` and `p` lists its six fields
as subset 0 endpoint 0, subset 0 endpoint 1, subset 1 endpoint 0, and so on; a field the mode lacks is 0. -/
structure RawFields where
  part : Nat
  rot  : Nat
  isb  : Nat
  r    : List Nat
  g    : List Nat
  b    : List Nat
  a    : List Nat
  p    : List Nat
  idx1 : List Nat
  idx2 : List Nat
  deriving DecidableEq, Repr

/-- The fields read, followed by the zero defaults of the fixed shape (10_state.md R31). -/
def zeroPad (n : Nat) (xs : List Nat) : List Nat := xs ++ List.replicate (n - xs.length) 0

/-- The fields of one channel, subset-major and then endpoint (42_field_extractor.md R99, R100). -/
def readChannel (blk : Block) (ns bits : Nat) (r : Reader) : ReadResult (List Nat) :=
  readMany blk (List.replicate (2 * ns) bits) r

/-- `ReadAlpha` (42_field_extractor.md R100): no reads at all in a mode without alpha. -/
def readAlpha (blk : Block) (d : ModeDescriptor) (r : Reader) : ReadResult (List Nat) :=
  if d.alphaBits > 0 then readChannel blk d.subsets d.alphaBits r else .value [] r

/-- `ReadPbits` (42_field_extractor.md R101): private bits one per endpoint, shared bits copied to both endpoints of
their subset. -/
def readPbits (blk : Block) (d : ModeDescriptor) (r : Reader) : ReadResult (List Nat) :=
  if d.endpointPbits = 1 then readChannel blk d.subsets 1 r
  else if d.sharedPbits = 1 then
    (readMany blk (List.replicate d.subsets 1) r).bind fun qs r' => .value (qs.flatMap fun q => [q, q]) r'
  else .value [] r

/-- `ReadIndices` (42_field_extractor.md R102): an anchor texel's field is one bit short. -/
def readIndices (blk : Block) (ns part w : Nat) (r : Reader) : ReadResult (List Nat) :=
  readMany blk (indexWidths ns part w) r

/-- The secondary plane, read only where the mode has one (42_field_extractor.md R103). -/
def readSecondIndices (blk : Block) (d : ModeDescriptor) (part : Nat) (r : Reader) : ReadResult (List Nat) :=
  if d.index2Bits > 0 then readIndices blk d.subsets part d.index2Bits r else .value [] r

/-- `Extract` (42_field_extractor.md R96), the reads in wire order from the reader of R77, with the end check of R104. -/
def extract (blk : Block) (d : ModeDescriptor) (m : Mode) : ReadResult RawFields :=
  (readBits blk d.partitionBits (Reader.start m)).bind fun part r =>
  (readBits blk d.rotationBits r).bind fun rot r =>
  (readBits blk d.indexSelectionBits r).bind fun isb r =>
  (readChannel blk d.subsets d.colorBits r).bind fun red r =>
  (readChannel blk d.subsets d.colorBits r).bind fun green r =>
  (readChannel blk d.subsets d.colorBits r).bind fun blue r =>
  (readAlpha blk d r).bind fun alpha r =>
  (readPbits blk d r).bind fun pbits r =>
  (readIndices blk d.subsets part d.indexBits r).bind fun idx1 r =>
  (readSecondIndices blk d part r).bind fun idx2 r =>
  if r.budget = 0 ∧ r.err = false then
    .value
      { part := part, rot := rot, isb := isb
        r := zeroPad 6 red, g := zeroPad 6 green, b := zeroPad 6 blue
        a := zeroPad 6 alpha, p := zeroPad 6 pbits
        idx1 := zeroPad 16 idx1, idx2 := zeroPad 16 idx2 } r
  else .bitBudget r

/-! ### Partition map and index planes -/

/-- `PartitionMap` (45_block_decoder.md R126). -/
def partitionMap (ns part : Nat) : List Nat := (List.range 16).map (partition ns part)

/-- An index value with the width of its plane. -/
structure IndexChoice where
  k : Nat
  w : Nat
  deriving DecidableEq, Repr

/-- `SelectPlanes`, the colour index of texel `i` (45_block_decoder.md R127). -/
def colorIndex (d : ModeDescriptor) (raw : RawFields) (i : Nat) : IndexChoice :=
  if d.index2Bits > 0 ∧ raw.isb = 1 then ⟨raw.idx2.getD i 0, d.index2Bits⟩
  else ⟨raw.idx1.getD i 0, d.indexBits⟩

/-- `SelectPlanes`, the alpha index of texel `i` (45_block_decoder.md R127): the plane colour does not use, or the one
plane there is. -/
def alphaIndex (d : ModeDescriptor) (raw : RawFields) (i : Nat) : IndexChoice :=
  if d.index2Bits > 0 ∧ raw.isb = 1 then ⟨raw.idx1.getD i 0, d.indexBits⟩
  else if d.index2Bits > 0 then ⟨raw.idx2.getD i 0, d.index2Bits⟩
  else ⟨raw.idx1.getD i 0, d.indexBits⟩

end Sys2Proof.Machine
end

