-- ==== Sys2Proof/Machine/Datapath.lean ====
section
/-! DEFINITION. The combinational datapath: the Endpoint Expander (43_endpoint_expander.md), the Interpolator
(44_interpolator.md), channel rotation and the texel (45_block_decoder.md R128 to R132). -/

namespace Sys2Proof.Machine

/-- Four 8-bit lanes R, G, B, A: an expanded endpoint (10_state.md R32) or a texel (R33). -/
structure Lanes where
  r : Byte
  g : Byte
  b : Byte
  a : Byte
  deriving DecidableEq, Repr

/-- `Expand(v, bits, pbc, q)` (43_endpoint_expander.md R107, with the corrected operand of 90_conflicts.md C1). -/
def expand (v bits pbc q : Nat) : Nat :=
  let precision := bits + pbc
  let shifted := (v <<< pbc) ||| (if pbc = 1 then q else 0)
  let x := shifted <<< (8 - precision)
  if precision < 8 then x ||| (x >>> precision) else x

/-- An expanded channel as the byte it is (43_endpoint_expander.md R108). -/
def expandByte (v bits pbc q : Nat) : Byte := BitVec.ofNat 8 (expand v bits pbc q)

/-- `Interpolate(e0, e1, k, W)` (44_interpolator.md R116). -/
def interpolate (e0 e1 : Byte) (k w : Nat) : Byte :=
  let wt := weight w k
  BitVec.ofNat 8 (((64 - wt) * e0.toNat + wt * e1.toNat + 32) >>> 6)

/-- The expanded endpoint of raw colour, alpha and p-bit fields number `j` (43_endpoint_expander.md R109, R110). -/
def expandEndpoint (d : ModeDescriptor) (raw : RawFields) (j : Nat) : Lanes :=
  let q := raw.p.getD j 0
  { r := expandByte (raw.r.getD j 0) d.colorBits d.pbc q
    g := expandByte (raw.g.getD j 0) d.colorBits d.pbc q
    b := expandByte (raw.b.getD j 0) d.colorBits d.pbc q
    a := if d.alphaBits > 0 then expandByte (raw.a.getD j 0) d.alphaBits d.pbc q else 255 }

/-- `ExpandAll`: the six endpoints ep[s][e], number 2s + e; those of unused subsets hold 0 (10_state.md R32). -/
def expandAll (d : ModeDescriptor) (raw : RawFields) : List Lanes :=
  (List.range 6).map fun j => if j < 2 * d.subsets then expandEndpoint d raw j else ⟨0, 0, 0, 0⟩

/-- Endpoint `e` of subset `s`. -/
def endpoint (eps : List Lanes) (s e : Nat) : Lanes := eps.getD (2 * s + e) ⟨0, 0, 0, 0⟩

/-- The three colour lanes and the alpha lane, each interpolated on its own (45_block_decoder.md R128). -/
def blend (e0 e1 : Lanes) (kc wc ka wa : Nat) : Lanes :=
  { r := interpolate e0.r e1.r kc wc
    g := interpolate e0.g e1.g kc wc
    b := interpolate e0.b e1.b kc wc
    a := interpolate e0.a e1.a ka wa }

/-- `Rotate` (45_block_decoder.md R130). -/
def rotate (t : Lanes) (rot : Nat) : Lanes :=
  match rot with
  | 1 => ⟨t.a, t.g, t.b, t.r⟩
  | 2 => ⟨t.r, t.a, t.b, t.g⟩
  | 3 => ⟨t.r, t.g, t.a, t.b⟩
  | _ => t

/-- `Texel` (45_block_decoder.md R131). -/
def texel (d : ModeDescriptor) (raw : RawFields) (eps : List Lanes) (sub : List Nat) (i : Nat) : Lanes :=
  let s := sub.getD i 0
  let c := colorIndex d raw i
  let a := alphaIndex d raw i
  rotate (blend (endpoint eps s 0) (endpoint eps s 1) c.k c.w a.k a.w) raw.rot

/-- A texel as its TEX word {A, B, G, R} (45_block_decoder.md R132, 10_state.md R26). -/
def packTexel (t : Lanes) : Word := t.a ++ t.b ++ t.g ++ t.r

/-- The TEX file of sixteen texels, each placed by its index. -/
def texFile (f : Nat → Lanes) : TexFile := Vector.ofFn fun i => packTexel (f i.val)

/-- The end of a successful DECODE: all sixteen TEX registers and then STATUS with VALID (45_block_decoder.md R132). -/
def finishDecode (m : Mode) (f : Nat → Lanes) (s : State) : State :=
  setStatus (setTex s (texFile f)) (decodedStatus m)

end Sys2Proof.Machine
end

