-- ==== Sys2Proof/Machine/Commands.lean ====
section
/-! DEFINITION. The four command words (10_state.md R24): NOP, DECODE, MODEQ and the reserved command. -/

namespace Sys2Proof.Machine

/-- NOP (45_block_decoder.md R122): no state changes. -/
def execNop (s : State) : Host.Outcome State Fault Refusal := .next s

/-- The five steps of DECODE (45_block_decoder.md R123) under a mode table; the core's own is MODE_TABLE, and another one
shows the defensive check BitBudget at work (60_exceptions.md R167). -/
def runDecode (table : Mode → ModeDescriptor) (s : State) : State :=
  let blk := operandBlock s
  match lowestSetBit (byte0 blk) with
  | none => takeFault .reservedMode (beginCommand s)
  | some m =>
    let known := setStatus (beginCommand s) (modeKnownStatus m)
    match extract blk (table m) m with
    | .bitBudget _ => takeFault (.bitBudget m) known
    | .value raw _ =>
      let eps := expandAll (table m) raw
      let sub := partitionMap (table m).subsets raw.part
      finishDecode m (texel (table m) raw eps sub) known

/-- DECODE (45_block_decoder.md R123). A BLK word that holds no value enters the block as a free value (log entry 16). -/
def execDecode (s : State) : Host.Outcome State Fault Refusal :=
  .next (spendFree (!blkHeld s) (runDecode modeTable s))

/-- The effect of MODEQ (45_block_decoder.md R124): only blk[7:0] is read and only STATUS written. -/
def runModeq (s : State) : State :=
  match lowestSetBit ((operandWord s 0).extractLsb' 0 8) with
  | none => takeFault .reservedMode (beginCommand s)
  | some m => setStatus (beginCommand s) (modeKnownStatus m)

/-- MODEQ (45_block_decoder.md R124). A BLK0 that holds no value is read as a free value (log entry 16). -/
def execModeq (s : State) : Host.Outcome State Fault Refusal :=
  .next (spendFree (!s.blk0.held) (runModeq s))

/-- CMD.RESERVED (60_exceptions.md R168): IllegalCommand is taken without reading `blk`. -/
def execCmdReserved (s : State) : Host.Outcome State Fault Refusal :=
  .next (takeFault .illegalCommand (beginCommand s))

end Sys2Proof.Machine
end

