-- ==== Sys2Proof/Machine/Modes.lean ====
section
/-! DEFINITION. The block instructions, one meaning each: the eight modes as 45_block_decoder.md R135 to R142 give them, and the
reserved block (60_exceptions.md R166). Each ends the DECODE of a block whose fields are the instruction's operands. -/

namespace Sys2Proof.Machine

/-- An endpoint of a mode without alpha: its alpha is 255 (43_endpoint_expander.md R110). `bits` and `pbc` are the mode's
colour width and p-bit count, `q` the endpoint's p-bit, `j` = 2s + e its number. -/
def opaqueEndpoint (bits pbc : Nat) (r g b : List Nat) (q j : Nat) : Lanes :=
  { r := expandByte (r.getD j 0) bits pbc q
    g := expandByte (g.getD j 0) bits pbc q
    b := expandByte (b.getD j 0) bits pbc q
    a := 255 }

/-- An endpoint of a mode with alpha of width `abits` (43_endpoint_expander.md R110). -/
def alphaEndpoint (bits abits pbc : Nat) (r g b a : List Nat) (q j : Nat) : Lanes :=
  { r := expandByte (r.getD j 0) bits pbc q
    g := expandByte (g.getD j 0) bits pbc q
    b := expandByte (b.getD j 0) bits pbc q
    a := expandByte (a.getD j 0) abits pbc q }

/-- A texel of a mode without alpha: three interpolated lanes and 255. -/
def opaqueTexel (e0 e1 : Lanes) (k w : Nat) : Lanes :=
  ⟨interpolate e0.r e1.r k w, interpolate e0.g e1.g k w, interpolate e0.b e1.b k w, 255⟩

/-- bc7.m0 (45_block_decoder.md R135): three subsets, 5-bit colour precision, 3-bit indices, alpha 255. -/
def execBc7m0 (part : Nat) (r g b p idx : List Nat) (s : State) : Host.Outcome State Fault Refusal :=
  let ep := fun j => opaqueEndpoint 4 1 r g b (p.getD j 0) j
  .next (finishDecode 0 (fun i =>
    let sub := partition 3 part i
    opaqueTexel (ep (2 * sub)) (ep (2 * sub + 1)) (idx.getD i 0) 3) s)

/-- bc7.m1 (R136): two subsets, 7-bit colour precision with the subset's shared p-bit, 3-bit indices, alpha 255. -/
def execBc7m1 (part : Nat) (r g b p idx : List Nat) (s : State) : Host.Outcome State Fault Refusal :=
  let ep := fun j => opaqueEndpoint 6 1 r g b (p.getD (j / 2) 0) j
  .next (finishDecode 1 (fun i =>
    let sub := partition 2 part i
    opaqueTexel (ep (2 * sub)) (ep (2 * sub + 1)) (idx.getD i 0) 3) s)

/-- bc7.m2 (R137): three subsets, 5-bit colour precision without p-bits, 2-bit indices, alpha 255. -/
def execBc7m2 (part : Nat) (r g b idx : List Nat) (s : State) : Host.Outcome State Fault Refusal :=
  let ep := fun j => opaqueEndpoint 5 0 r g b 0 j
  .next (finishDecode 2 (fun i =>
    let sub := partition 3 part i
    opaqueTexel (ep (2 * sub)) (ep (2 * sub + 1)) (idx.getD i 0) 2) s)

/-- bc7.m3 (R138): two subsets, 8-bit colour precision, 2-bit indices, alpha 255. -/
def execBc7m3 (part : Nat) (r g b p idx : List Nat) (s : State) : Host.Outcome State Fault Refusal :=
  let ep := fun j => opaqueEndpoint 7 1 r g b (p.getD j 0) j
  .next (finishDecode 3 (fun i =>
    let sub := partition 2 part i
    opaqueTexel (ep (2 * sub)) (ep (2 * sub + 1)) (idx.getD i 0) 2) s)

/-- bc7.m4 (R139): one subset, 5-bit colour and 6-bit alpha precision; the index-selection bit says which of the 2-bit
and the 3-bit plane drives colour, and rotation follows interpolation. -/
def execBc7m4 (rot isb : Nat) (r g b a idx idx2 : List Nat) (s : State) : Host.Outcome State Fault Refusal :=
  let ep := fun j => alphaEndpoint 5 6 0 r g b a 0 j
  .next (finishDecode 4 (fun i =>
    rotate
      (if isb = 1 then blend (ep 0) (ep 1) (idx2.getD i 0) 3 (idx.getD i 0) 2
       else blend (ep 0) (ep 1) (idx.getD i 0) 2 (idx2.getD i 0) 3) rot) s)

/-- bc7.m5 (R140): one subset, 7-bit colour and 8-bit alpha precision, colour from the primary and alpha from the
secondary 2-bit plane, then rotation. -/
def execBc7m5 (rot : Nat) (r g b a idx idx2 : List Nat) (s : State) : Host.Outcome State Fault Refusal :=
  let ep := fun j => alphaEndpoint 7 8 0 r g b a 0 j
  .next (finishDecode 5 (fun i => rotate (blend (ep 0) (ep 1) (idx.getD i 0) 2 (idx2.getD i 0) 2) rot) s)

/-- bc7.m6 (R141): one subset, 8-bit colour and alpha precision, one 4-bit plane for all four lanes. -/
def execBc7m6 (r g b a p idx : List Nat) (s : State) : Host.Outcome State Fault Refusal :=
  let ep := fun j => alphaEndpoint 7 7 1 r g b a (p.getD j 0) j
  .next (finishDecode 6 (fun i => blend (ep 0) (ep 1) (idx.getD i 0) 4 (idx.getD i 0) 4) s)

/-- bc7.m7 (R142): two subsets, 6-bit colour and alpha precision, one 2-bit plane for all four lanes. -/
def execBc7m7 (part : Nat) (r g b a p idx : List Nat) (s : State) : Host.Outcome State Fault Refusal :=
  let ep := fun j => alphaEndpoint 5 5 1 r g b a (p.getD j 0) j
  .next (finishDecode 7 (fun i =>
    let sub := partition 2 part i
    blend (ep (2 * sub)) (ep (2 * sub + 1)) (idx.getD i 0) 2 (idx.getD i 0) 2) s)

/-- bc7.reserved (60_exceptions.md R166): ReservedMode is taken, whatever bits 127:8 hold (30_encoding.md R70). -/
def execBc7Reserved (_ignored : BitVec 120) (s : State) : Host.Outcome State Fault Refusal :=
  .next (takeFault .reservedMode (beginCommand s))

end Sys2Proof.Machine
end

