-- ==== Sys2Proof/Machine/Dispatch.lean ====
section
/-! DEFINITION. exec: one arm per instruction, each a direct call of its meaning. -/

namespace Sys2Proof.Machine

def exec (i : Instr) (s : State) : Host.Outcome State Fault Refusal :=
  match i with
  | .bc7m0 part r g b p idx => Sys2Proof.Machine.execBc7m0 part r g b p idx s
  | .bc7m1 part r g b p idx => Sys2Proof.Machine.execBc7m1 part r g b p idx s
  | .bc7m2 part r g b idx => Sys2Proof.Machine.execBc7m2 part r g b idx s
  | .bc7m3 part r g b p idx => Sys2Proof.Machine.execBc7m3 part r g b p idx s
  | .bc7m4 rot isb r g b a idx idx2 => Sys2Proof.Machine.execBc7m4 rot isb r g b a idx idx2 s
  | .bc7m5 rot r g b a idx idx2 => Sys2Proof.Machine.execBc7m5 rot r g b a idx idx2 s
  | .bc7m6 r g b a p idx => Sys2Proof.Machine.execBc7m6 r g b a p idx s
  | .bc7m7 part r g b a p idx => Sys2Proof.Machine.execBc7m7 part r g b a p idx s
  | .bc7Reserved ignored => Sys2Proof.Machine.execBc7Reserved ignored s
  | .nop => Sys2Proof.Machine.execNop s
  | .decode => Sys2Proof.Machine.execDecode s
  | .modeq => Sys2Proof.Machine.execModeq s
  | .cmdReserved => Sys2Proof.Machine.execCmdReserved s

end Sys2Proof.Machine
end

