-- ==== Sys2Proof/Machine/Bus.lean ====
section
/-! DEFINITION. The register block as the host sees it (10_state.md R22, R28): which accesses are admitted, what a read
returns, what a write does, and the start of a command. -/

namespace Sys2Proof.Machine

/-- A register of the map of 10_state.md R22. -/
inductive RegName where
  | blk (k : Fin 4)
  | cmd
  | status
  | tex (i : Fin 16)
  deriving DecidableEq, Repr

/-- The offset of a register (10_state.md R22, 30_encoding.md R75). -/
def RegName.offset (n : RegName) : Nat :=
  match n with
  | .blk k => 4 * k.val
  | .cmd => 0x10
  | .status => 0x14
  | .tex i => 0x20 + 4 * i.val

/-- The register a host access of `bits` bits at `off` reaches, or why it is refused (10_state.md R28). -/
def admitAccess (bits off : Nat) : Except Refusal RegName :=
  if bits ≠ 32 then .error (.accessWidth bits)
  else if off % 4 ≠ 0 then .error (.misaligned off)
  else if off < 0x10 then .ok (.blk (Fin.ofNat 4 (off / 4)))
  else if off = 0x10 then .ok .cmd
  else if off = 0x14 then .ok .status
  else if off < 0x20 then .error (.reservedOffset off)
  else if off < 0x60 then .ok (.tex (Fin.ofNat 16 ((off - 0x20) / 4)))
  else .error (.beyondRegisterBlock off)

/-- The spec defines what a read of the register returns (10_state.md R27): STATUS and CMD always, BLKk once it was written
since reset, TEX[i] while VALID is 1. -/
def regDefined (s : State) (n : RegName) : Bool :=
  match n with
  | .blk k => (getBlk s k).held
  | .cmd => true
  | .status => true
  | .tex _ => statusValid s.status

/-- The value a read of an admitted register returns (10_state.md R22, R27, 20_memory.md R47); where the spec leaves the word
unspecified, a free value (log entry 16). -/
def readReg (s : State) (n : RegName) : Word :=
  match n with
  | .blk k => operandWord s k
  | .cmd => 0
  | .status => s.status
  | .tex i => if statusValid s.status then s.tex[i] else Config.freeTexWord s.freeUsed i

/-- A host register read: no side effect on any register (20_memory.md R47). -/
def regRead (bits off : Nat) (s : State) : Host.Outcome Word Fault Refusal :=
  match admitAccess bits off with
  | .error e => .refused e
  | .ok n => .next (readReg s n)

/-- The read answers with a free value. -/
def readIsFree (bits off : Nat) (s : State) : Bool :=
  match admitAccess bits off with
  | .error _ => false
  | .ok n => !regDefined s n

/-- A write to CMD: the word is decoded and its command runs at once (10_state.md R24, 70_reset_and_hazards.md R187). -/
def startCommand (w : Word) (s : State) : Host.Outcome State Fault Refusal :=
  match decodeCommand w with
  | .ok i => exec i s
  | .error _ => .refused (.commandHighBits w)

/-- A write to an admitted register; STATUS and TEX ignore it (10_state.md R28). -/
def writeReg (n : RegName) (v : Word) (s : State) : Host.Outcome State Fault Refusal :=
  match n with
  | .blk k => .next (setBlk s k v)
  | .cmd => startCommand v s
  | .status => .next s
  | .tex _ => .next s

/-- A host register write. -/
def regWrite (bits off : Nat) (v : Word) (s : State) : Host.Outcome State Fault Refusal :=
  match admitAccess bits off with
  | .error e => .refused e
  | .ok n => writeReg n v s

/-! ### The host access syntax of 30_encoding.md R75 -/

/-- `wr BLK<k>, <imm32>`. -/
def wrBlk (k : Fin 4) (v : Word) : HostAccess := .regWrite 32 (RegName.blk k).offset v

/-- `wr CMD, <imm32>`; NOP is 0, DECODE 1, MODEQ 2. -/
def wrCmd (v : Word) : HostAccess := .regWrite 32 RegName.cmd.offset v

/-- `wr STATUS, <imm32>`. -/
def wrStatus (v : Word) : HostAccess := .regWrite 32 RegName.status.offset v

/-- `rd BLK<k>`. -/
def rdBlk (k : Fin 4) : HostAccess := .regRead 32 (RegName.blk k).offset

/-- `rd STATUS`. -/
def rdStatus : HostAccess := .regRead 32 RegName.status.offset

/-- `rd TEX[<i>]`. -/
def rdTex (i : Fin 16) : HostAccess := .regRead 32 (RegName.tex i).offset

end Sys2Proof.Machine
end

