-- ==== Sys2Proof/Machine/Calls.lean ====
section
/-! DEFINITION. The three host functions (46_host_interface.md) as sequences of register and host-memory accesses, each call
run to completion in one step (R143), and the host's accesses one by one. -/

namespace Sys2Proof.Machine

/-! ### Sizes and addresses -/

/-- The tag a call names (46_host_interface.md R144). -/
def formatOf (f : FormatArg) : FormatTag :=
  match f with
  | .tag t => t
  | .code n => formatOfCode n

/-- `output_size` (46_host_interface.md R145). -/
def outputSize (t : FormatTag) (width height : Nat) : Nat :=
  match t with
  | .bc7Unorm => width * height * 4
  | .bc6hSignedFloat => width * height * 6
  | .bc6hUnsignedFloat => width * height * 6
  | .unknown => 0

/-- The block grid: ceil(n / 4) blocks cover n pixels (46_host_interface.md R148). -/
def blocksAcross (n : Nat) : Nat := (n + 3) / 4

/-- The bytes the source span needs (46_host_interface.md R148). -/
def sourceBytes (width height : Nat) : Nat := 16 * blocksAcross width * blocksAcross height

/-- Width and height, and the two products of a call, fit `bits` bits, the parameter SIZE_BITS (46_host_interface.md
R146). -/
def sizesFit (bits width height : Nat) : Bool :=
  decide (width < 2 ^ bits) && decide (height < 2 ^ bits)
    && decide (width * height * 6 < 2 ^ bits) && decide (sourceBytes width height < 2 ^ bits)

/-- A buffer size is an unsigned integer of `bits` bits (46_host_interface.md R146). -/
def bufferFits (bits size : Nat) : Bool := decide (size < 2 ^ bits)

/-- All the widths and sizes of a `decode` call fit `bits` bits (46_host_interface.md R146). -/
def argsFit (bits : Nat) (args : DecodeArgs) : Bool :=
  sizesFit bits args.width args.height && bufferFits bits args.srcSize && bufferFits bits args.dstSize

/-- The blocks of an image, row-major (46_host_interface.md R155). -/
def blockGrid (bw bh : Nat) : List (Nat × Nat) :=
  (List.range bh).flatMap fun y => (List.range bw).map fun x => (x, y)

/-- The address of block (bx, by) (46_host_interface.md R149). -/
def blockAddr (src bw : Nat) (at' : Nat × Nat) : Nat := src + 16 * (at'.1 + bw * at'.2)

/-- The pixel texel `i` of a block is (46_host_interface.md R150). -/
def pixelOf (at' : Nat × Nat) (i : Nat) : Nat × Nat := (at'.1 * 4 + i % 4, at'.2 * 4 + i / 4)

/-- The address of a pixel (46_host_interface.md R150). -/
def pixelAddr (dst width : Nat) (px : Nat × Nat) : Nat := dst + (px.2 * width + px.1) * 4

/-! ### The BC7 path of `decode` (46_host_interface.md R155) -/

/-- Pass 1: whether some block has byte 0 equal to 0 (46_host_interface.md R157). -/
def anyReserved (m : Memory) (addrs : List Nat) : Host.Outcome Bool Fault Refusal :=
  match addrs with
  | [] => .next false
  | a :: rest => andThen (readByte m a) fun b => if b = 0 then .next true else anyReserved m rest

/-- The BLK writes of one block, in the order given (46_host_interface.md R156). -/
def loadBlock (a : Nat) (ks : List Nat) (s : State) : Host.Outcome State Fault Refusal :=
  match ks with
  | [] => .next s
  | k :: rest =>
    andThen (memRead s.mem (a + 4 * k) 4) fun v =>
    andThen (regWrite 32 (4 * k) (BitVec.ofNat 32 v) s) fun s' => loadBlock a rest s'

/-- The TEX reads of one block and the pixel writes that clipping lets through (46_host_interface.md R151, R155). -/
def storeTexels (args : DecodeArgs) (at' : Nat × Nat) (is : List Nat) (s : State) : Host.Outcome State Fault Refusal :=
  match is with
  | [] => .next s
  | i :: rest =>
    andThen (regRead 32 (0x20 + 4 * i) s) fun t =>
    let px := pixelOf at' i
    if px.1 < args.width ∧ px.2 < args.height then
      storeTexels args at' rest { s with mem := memWriteWord s.mem (pixelAddr args.dst args.width px) t }
    else storeTexels args at' rest s

/-- One block of pass 2: load, DECODE, read STATUS, store; false when the core recorded a fault. -/
def decodeOne (args : DecodeArgs) (at' : Nat × Nat) (s : State) : Host.Outcome (State × Bool) Fault Refusal :=
  andThen (loadBlock (blockAddr args.src (blocksAcross args.width) at') [0, 1, 2, 3] s) fun s1 =>
  andThen (regWrite 32 0x10 1 s1) fun s2 =>
  andThen (regRead 32 0x14 s2) fun st =>
  if statusFault st then .next (s2, false)
  else andThen (storeTexels args at' (List.range 16) s2) fun s3 => .next (s3, true)

/-- Pass 2 over the blocks in order; the first fault ends it. -/
def decodeGrid (args : DecodeArgs) (blocks : List (Nat × Nat)) (s : State) :
    Host.Outcome (State × Bool) Fault Refusal :=
  match blocks with
  | [] => .next (s, true)
  | at' :: rest =>
    andThen (decodeOne args at' s) fun q => if q.2 then decodeGrid args rest q.1 else .next (q.1, false)

/-- A call returns. -/
def returnCall (r : CallResult) (s : State) : State := { s with callResult := some r }

/-- The BC7 path (46_host_interface.md R152, R155, R157); a call that changes its own source span is refused (R160). -/
def decodeBc7 (args : DecodeArgs) (s : State) : Host.Outcome State Fault Refusal :=
  let bw := blocksAcross args.width
  let bh := blocksAcross args.height
  let blocks := blockGrid bw bh
  if args.srcSize < 16 * bw * bh then .next (returnCall (.decode false) s)
  else
    andThen (anyReserved s.mem (blocks.map (blockAddr args.src bw))) fun reserved =>
    if reserved then .next (returnCall (.decode false) s)
    else
      andThen (decodeGrid args blocks s) fun q =>
      if Memory.span q.1.mem args.src (16 * bw * bh) = Memory.span s.mem args.src (16 * bw * bh) then
        .next (returnCall (.decode q.2) q.1)
      else .refused .sourceSpanChanged

/-! ### The three functions -/

/-- The call `output_size` (46_host_interface.md R145, R146, R147), on a host whose sizes are `bits` wide. -/
def callOutputSize (bits : Nat) (f : FormatArg) (width height : Nat) (s : State) : Host.Outcome State Fault Refusal :=
  if sizesFit bits width height then .next (returnCall (.size (outputSize (formatOf f) width height)) s)
  else .refused .sizeTooWide

/-- `decode` with an unknown tag: failure, and every byte of the destination is any value (46_host_interface.md R154,
R158), a free value for each. DESIGN CHOICE: so it is where the destination overlaps the call's own source span (log
entry 19). -/
def decodeUnknown (args : DecodeArgs) (s : State) : State :=
  returnCall (.decode false)
    { s with
      mem := Memory.writeBytes s.mem args.dst
        ((List.range args.dstSize).map fun j => Config.freeDstByte (s.freeUsed + j))
      freeUsed := s.freeUsed + args.dstSize }

/-- The call `decode` once its arguments are admitted: format dispatch (46_host_interface.md R154). -/
def decodeDispatch (t : FormatTag) (args : DecodeArgs) (s : State) : Host.Outcome State Fault Refusal :=
  match t with
  | .bc7Unorm => decodeBc7 args s
  | .bc6hSignedFloat => .next (returnCall (.decode false) s)
  | .bc6hUnsignedFloat => .next (returnCall (.decode false) s)
  | .unknown => .next (decodeUnknown args s)

/-- The call `decode` (46_host_interface.md R146, R147, R153, R154), on a host whose sizes are `bits` wide. -/
def callDecode (bits : Nat) (args : DecodeArgs) (s : State) : Host.Outcome State Fault Refusal :=
  let t := formatOf args.format
  if !argsFit bits args then .refused .sizeTooWide
  else if args.width = 0 ∨ args.height = 0 then .refused .emptyImage
  else if args.dstSize < outputSize t args.width args.height then .refused .destinationTooSmall
  else decodeDispatch t args s

/-- The call `block_mode` (46_host_interface.md R146, R159), on a host whose sizes are `bits` wide. -/
def callBlockMode (bits : Nat) (args : BlockModeArgs) (s : State) : Host.Outcome State Fault Refusal :=
  let a := blockAddr args.src args.blockWidth (args.blockX, args.blockY)
  if !bufferFits bits args.srcSize then .refused .sizeTooWide
  else if a + 16 > args.src + args.srcSize then .next (returnCall (.blockMode Config.blockModeFail) s)
  else
    andThen (memRead s.mem a 4) fun v =>
    andThen (regWrite 32 0x00 (BitVec.ofNat 32 v) s) fun s1 =>
    andThen (regWrite 32 0x10 2 s1) fun s2 =>
    andThen (regRead 32 0x14 s2) fun st =>
    if statusFault st then .next (returnCall (.blockMode Config.blockModeFail) s2)
    else .next (returnCall (.blockMode ((statusMode st).toNat : Int)) s2)

/-! ### One access of the host or the platform -/

/-- Runs one access (20_memory.md R49: one at a time, each complete before the next begins). The calls take the open
parameter SIZE_BITS. DESIGN CHOICE: a reset comes before or after a whole call, never inside one (log entry 20). -/
def runAccess (x : HostAccess) (s : State) : Host.Outcome State Fault Refusal :=
  match x with
  | .regWrite bits off v => regWrite bits off v s
  | .regRead bits off => andThen (regRead bits off s) fun v =>
    .next (spendFree (readIsFree bits off s) { s with readData := some v })
  | .memWrite a bytes => .next { s with mem := Memory.writeBytes s.mem a bytes }
  | .memRead a => andThen (readByte s.mem a) fun b => .next { s with readData := some (b.setWidth 32) }
  | .platformReset => .next (resetCore s)
  | .outputSize f w h => callOutputSize Config.sizeBits f w h s
  | .decodeImage args => callDecode Config.sizeBits args s
  | .blockMode args => callBlockMode Config.sizeBits args s

end Sys2Proof.Machine
end

