-- ==== Sys2Proof/Machine/Step.lean ====
section
/-! DEFINITION. One step: the host's next access takes effect, whole (70_reset_and_hazards.md R187); with none pending the
core is idle and holds its state (60_exceptions.md R182). -/

namespace Sys2Proof.Machine

/-- One step of the machine. A CMD write runs the command its word decodes to; DECODE runs the block in BLK. -/
def step (s : State) : Host.Outcome State Fault Refusal :=
  match s.pending with
  | [] => .next s
  | x :: rest => runAccess x { s with pending := rest }

/-- The host's four BLK writes of a block (46_host_interface.md R156). -/
def loadBlk (blk : Block) (s : State) : State :=
  { s with
    blk0 := ⟨blk.extractLsb' 0 32, true⟩
    blk1 := ⟨blk.extractLsb' 32 32, true⟩
    blk2 := ⟨blk.extractLsb' 64 32, true⟩
    blk3 := ⟨blk.extractLsb' 96 32, true⟩ }

/-- The next step runs the given instruction. A command word (32 bits, the table's `cmd` rows) is the next CMD write; a block is
loaded into BLK and the next CMD write is DECODE. Log entry 6. -/
def State.withFetchWord (s : State) (nbits w : Nat) : State :=
  if nbits = 32 then { s with pending := wrCmd (BitVec.ofNat 32 w) :: s.pending }
  else
    let s' := loadBlk (BitVec.ofNat 128 (w % 2 ^ nbits)) s
    { s' with pending := wrCmd 1 :: s.pending }

end Sys2Proof.Machine
end

