-- ==== Sys2Proof/Machine/Contract.lean ====
section
/-! DEFINITION. The contract of a host over registers without a value (10_state.md R27, 60_exceptions.md R172 (c),
70_reset_and_hazards.md R184, R186): which accesses the spec gives a step, and the step of a host that keeps to them. Outside
the contract `step` goes on with free values (log entry 16). -/

namespace Sys2Proof.Machine

/-- Every BLK word the instruction reads holds a value (70_reset_and_hazards.md R186): all four for DECODE, BLK0 for MODEQ. -/
def operandsHeld (i : Instr) (s : State) : Bool :=
  match i with
  | .bc7m0 .. => true
  | .bc7m1 .. => true
  | .bc7m2 .. => true
  | .bc7m3 .. => true
  | .bc7m4 .. => true
  | .bc7m5 .. => true
  | .bc7m6 .. => true
  | .bc7m7 .. => true
  | .bc7Reserved _ => true
  | .nop => true
  | .decode => blkHeld s
  | .modeq => s.blk0.held
  | .cmdReserved => true

/-- A CMD write starts no command over a BLK word without a value (70_reset_and_hazards.md R186). -/
def commandDefined (w : Word) (s : State) : Bool :=
  match decodeCommand w with
  | .ok i => operandsHeld i s
  | .error _ => true

/-- A register write meets no BLK word without a value: only a write to CMD reads BLK. -/
def writeDefined (bits off : Nat) (v : Word) (s : State) : Bool :=
  match admitAccess bits off with
  | .error _ => true
  | .ok (.blk _) => true
  | .ok .cmd => commandDefined v s
  | .ok .status => true
  | .ok (.tex _) => true

/-- The access meets no register without a value. The calls meet none: `decode` writes all of BLK before each DECODE and reads
TEX only after one that succeeded, and `block_mode` writes BLK0 before its MODEQ (46_host_interface.md R155, R159). -/
def accessDefined (x : HostAccess) (s : State) : Bool :=
  match x with
  | .regWrite bits off v => writeDefined bits off v s
  | .regRead bits off => !readIsFree bits off s
  | .memWrite _ _ => true
  | .memRead _ => true
  | .platformReset => true
  | .outputSize _ _ _ => true
  | .decodeImage _ => true
  | .blockMode _ => true

/-- The step of a host that keeps the contract: there is none ("the host has no step", 60_exceptions.md R172) where the next
access meets a register without a value, and elsewhere it is the step of the machine. -/
def contractStep (s : State) : Option (Host.Outcome State Fault Refusal) :=
  match s.pending with
  | [] => some (step s)
  | x :: _ => if accessDefined x s then some (step s) else none

end Sys2Proof.Machine
end

