-- ==== Sys2Proof/Safety.lean ====
section
/-! DEFINITION. What claims about runs are stated in: the invariant of the machine, the parts of the state an instruction
leaves alone, and a run that meets no fault and no refusal. -/

namespace Sys2Proof.Machine

/-- The invariant: STATUS is a legal combination of 10_state.md R25 and records no BitBudget (60_exceptions.md R167), a BLK
register that holds no value has the one form of log entry 2, and host memory has its canonical form. -/
def State.Inv (s : State) : Prop :=
  legalStatus s.status = true
    ∧ statusFcause s.status ≠ 2
    ∧ (∀ k : Fin 4, (getBlk s k).held = false → getBlk s k = BlkReg.empty)
    ∧ Memory.wf s.mem = true

/-- What a run inside the host's contract keeps besides (70_reset_and_hazards.md R184, R186): VALID is set only after a DECODE over
four written BLK words, MODE_VALID only after a command over a written BLK0. -/
def State.ContractInv (s : State) : Prop :=
  s.Inv ∧ (statusValid s.status = true → blkHeld s = true) ∧ (statusModeValid s.status = true → s.blk0.held = true)

/-- Host memory reads the same at every address. -/
def sameMemory (s t : State) : Prop := ∀ a, Memory.read t.mem a = Memory.read s.mem a

/-- The BLK registers are the same. -/
def sameBlk (s t : State) : Prop := t.blk0 = s.blk0 ∧ t.blk1 = s.blk1 ∧ t.blk2 = s.blk2 ∧ t.blk3 = s.blk3

/-- The host's own state is the same: its queue, the values it was given and the model's counter. -/
def sameHost (s t : State) : Prop :=
  t.pending = s.pending ∧ t.readData = s.readData ∧ t.callResult = s.callResult ∧ t.freeUsed = s.freeUsed

/-- Everything but STATUS and TEX is the same: what every command leaves alone (60_exceptions.md R169). -/
def sameBesideStatusTex (s t : State) : Prop := sameBlk s t ∧ sameMemory s t ∧ sameHost s t

/-- Everything but STATUS is the same: what a command that writes no texels leaves alone. -/
def sameBesideStatus (s t : State) : Prop := t.tex = s.tex ∧ sameBesideStatusTex s t

/-- The access or instruction goes on: neither a fault nor a refusal. A run is safe while every step of it is clean. -/
def clean {σ : Type} (o : Host.Outcome σ Fault Refusal) : Prop := ∃ t, o = .next t

end Sys2Proof.Machine
end

