-- ==== Sys2Proof/Certificates/Slice0/Obligations.lean ====
section
/-! DEFINITION. The statements about the machine, from the numbered rules of the spec. -/

namespace Sys2Proof.Stated

open Sys2Proof.Machine

/-- Byte `c` of a TEX word: 0 is R, 1 is G, 2 is B, 3 is A (10_state.md R26). -/
def lane (w : Word) (c : Nat) : Nat := (w.toNat >>> (8 * c)) % 256

/-- A `p`-bit endpoint value widened to 8 bits, in the closed form of 43_endpoint_expander.md R108. -/
def widen (p n : Nat) : Nat := n * 2 ^ (8 - p) + n / 2 ^ (2 * p - 8)

/-- The blend of 44_interpolator.md R116 in integers, with the weight given. -/
def mix (e0 e1 w : Nat) : Nat := ((64 - w) * e0 + w * e1 + 32) / 64

/-- Texel `i` of the state has these four channel values. -/
def texelIs (t : State) (i : Fin 16) (r g b a : Nat) : Prop :=
  lane t.tex[i] 0 = r ∧ lane t.tex[i] 1 = g ∧ lane t.tex[i] 2 = b ∧ lane t.tex[i] 3 = a

/-- DECODE of the block that encodes `i`, with all of BLK holding it, ends in `t`. -/
def decodesTo (i : Instr) (s t : State) : Prop :=
  blkHeld s = true → blkValue s = encodeBlock i → exec .decode s = .next t

/-- The arguments of a `decode` call are admitted for the format `f` on a host whose sizes are `bits` wide (46_host_interface.md R146,
R147, R153). -/
def admitted (bits : Nat) (args : DecodeArgs) (f : FormatTag) : Prop :=
  formatOf args.format = f ∧ argsFit bits args = true ∧ args.width ≠ 0 ∧ args.height ≠ 0 ∧
    outputSize f args.width args.height ≤ args.dstSize

/-- Nothing but the call's result differs. -/
def onlyResult (s t : State) (r : CallResult) : Prop :=
  t.callResult = some r ∧ sameBlk s t ∧ t.status = s.status ∧ t.tex = s.tex ∧ sameMemory s t ∧
    t.pending = s.pending ∧ t.readData = s.readData ∧ t.freeUsed = s.freeUsed

/-- The address of block (x, y) of the image of a call (46_host_interface.md R149). -/
def imageBlock (args : DecodeArgs) (x y : Nat) : Nat := args.src + 16 * (x + (args.width + 3) / 4 * y)

end Sys2Proof.Stated

open Sys2Proof Sys2Proof.Machine Sys2Proof.Stated

/-! ### Encoding -/

/-- R57 examples and R72, words written out from the spec: the block of 30_encoding.md R73's example, the block of vector
V-M3-rand, a reserved block, and the four command words. -/
def Obligations.WrittenWordsDecode : Prop :=
  decodeBytes [0xC0, 0x44, 0x42, 0xA3, 0x59, 0xAD, 0x78, 0x3C, 0, 0, 0, 0, 0, 0, 0, 0] =
      .ok (.bc7m6 [9, 9] [26, 26] [43, 43] [60, 60] [0, 0] [0, 0, 0, 0, 0, 0, 0, 0, 0, 0, 0, 0, 0, 0, 0, 0])
    ∧ decodeBytes [0x98, 0x28, 0x4C, 0x1C, 0xC5, 0x6C, 0x79, 0x2E, 0xC6, 0x9B, 0xD8, 0xC0, 0x9F, 0x67, 0xE6, 0x12] =
      .ok (.bc7m3 9 [10, 38, 28, 10] [51, 75, 103, 69] [113, 77, 88, 1] [1, 1, 1, 1]
        [1, 3, 0, 3, 3, 0, 3, 0, 3, 0, 3, 1, 1, 2, 0, 0])
    ∧ decodeBytes [0, 1, 0, 0, 0, 0, 0, 0, 0, 0, 0, 0, 0, 0, 0, 0] = .ok (.bc7Reserved 1)
    ∧ decodeBytes [0, 0, 0, 0] = .ok .nop
    ∧ decodeBytes [1, 0, 0, 0] = .ok .decode
    ∧ decodeBytes [2, 0, 0, 0] = .ok .modeq
    ∧ decodeBytes [3, 0, 0, 0] = .ok .cmdReserved

/-- R72: bits 1:0 of a command word are OP and bits 31:2 must be 0. -/
def Obligations.CommandWordIsOpInLowBits : Prop :=
  ∀ w : Word,
    (w.extractLsb' 2 30 = 0 →
      (w.extractLsb' 0 2 = 0 → decodeCommand w = .ok .nop)
        ∧ (w.extractLsb' 0 2 = 1 → decodeCommand w = .ok .decode)
        ∧ (w.extractLsb' 0 2 = 2 → decodeCommand w = .ok .modeq)
        ∧ (w.extractLsb' 0 2 = 3 → decodeCommand w = .ok .cmdReserved))
    ∧ (w.extractLsb' 2 30 ≠ 0 → decodeCommand w = .error (.commandHighBits w))

/-- Decoding the encoding of any well-formed instruction gives it back, every operand at every value. -/
def Obligations.DecodeEncodeRoundTrip : Prop :=
  ∀ i : Instr, i.wellFormed = true → decodeBytes (encode i) = .ok i

/-- Every block is one well-formed instruction, and encoding that instruction gives the block back: no bit is dropped. -/
def Obligations.EncodeDecodeEveryBlock : Prop :=
  ∀ blk : Block, (decodeBlock blk).wellFormed = true ∧ encodeBlock (decodeBlock blk) = blk

/-- R57: mode m matches when bit m of block byte 0 is 1 and the bits below it are 0, which is that the lowest set bit is m;
no block matches two modes, and one that matches none has byte 0 equal to 0. -/
def Obligations.SelectorMatchesLowestSetBit : Prop :=
  ∀ (blk : Block) (m : Mode),
    (matchesMode blk m.val = true ↔ (blk.getLsbD m.val = true ∧ ∀ j, j < m.val → blk.getLsbD j = false))
      ∧ (matchesMode blk m.val = true ↔ lowestSetBit (byte0 blk) = some m)
      ∧ (lowestSetBit (byte0 blk) = none ↔ blk.extractLsb' 0 8 = 0)

/-- R70: a block is the reserved encoding exactly when its byte 0 is 0. -/
def Obligations.ReservedExactlyWhenByteZero : Prop :=
  ∀ blk : Block, (∃ rest, decodeBlock blk = .bc7Reserved rest) ↔ blk.extractLsb' 0 8 = 0

/-! ### ROMs -/

/-- Section 1 of 41_lookup_tables.md: every mode's fields and selector fill the 128 bits. -/
def Obligations.ModeFieldsFillTheBlock : Prop := ∀ m : Mode, (modeTable m).bits m = 128

/-- Section 3 of 41_lookup_tables.md: texel 0 is in subset 0 and is its anchor, every other anchor lies in its own subset,
and the three anchors of a 3-subset partition differ. -/
def Obligations.AnchorsLieInTheirSubsets : Prop :=
  ∀ p, p < 64 →
    partition 2 p 0 = 0 ∧ partition 3 p 0 = 0
      ∧ anchor 1 p 0 = 0 ∧ anchor 2 p 0 = 0 ∧ anchor 3 p 0 = 0
      ∧ partition 2 p (anchor 2 p 1) = 1 ∧ partition 3 p (anchor 3 p 1) = 1 ∧ partition 3 p (anchor 3 p 2) = 2
      ∧ anchor 2 p 1 ≠ 0 ∧ anchor 3 p 1 ≠ 0 ∧ anchor 3 p 2 ≠ 0 ∧ anchor 3 p 1 ≠ anchor 3 p 2
      ∧ ∀ i, i < 16 → partition 2 p i < 2 ∧ partition 3 p i < 3

/-- Section 4 of 41_lookup_tables.md: every weight is round-half-up of 64 k / (2^W - 1). -/
def Obligations.WeightsAreRoundedLinear : Prop :=
  ∀ w, w = 2 ∨ w = 3 ∨ w = 4 → ∀ k, k < 2 ^ w →
    weight w k = (64 * k * 2 + (2 ^ w - 1)) / (2 * (2 ^ w - 1)) ∧ weight w k ≤ 64

/-! ### The Bit Reader and the Field Extractor -/

/-- R78: what one read does, in every reader state. -/
def Obligations.ReadBitsReadsOrRaises : Prop :=
  ∀ (blk : Block) (n : Nat) (r : Reader),
    (r.err = true ∨ r.budget < n → readBits blk n r = .bitBudget ⟨r.pos, r.budget, true⟩)
      ∧ (r.err = false → n ≤ r.budget → n = 0 → readBits blk n r = .value 0 r)
      ∧ (r.err = false → n ≤ r.budget → n ≠ 0 →
        ∃ v, readBits blk n r = .value v ⟨r.pos + n, r.budget - n, false⟩ ∧ v < 2 ^ n ∧
          ∀ j, j < n → v.testBit j = blk.getLsbD (r.pos + j))

/-- Section on R81: as long as no read of a command fails, POS + BUDGET stays 128 and POS moves by the widths read. -/
def Obligations.ReadsTakeConsecutiveRanges : Prop :=
  ∀ (blk : Block) (widths : List Nat) (r r' : Reader) (vs : List Nat),
    r.err = false → r.pos + r.budget = 128 → readMany blk widths r = .value vs r' →
      r'.err = false ∧ r'.pos + r'.budget = 128 ∧ r'.pos = r.pos + widths.sum ∧ vs.length = widths.length ∧
        ∀ k, k < widths.length → ∀ j, j < widths.getD k 0 →
          (vs.getD k 0).testBit j = blk.getLsbD (r.pos + (widths.take k).sum + j)

/-- A failed read is final: position and budget stay, and every later read of the reader it leaves fails (section on R80). -/
def Obligations.FailedReadIsSticky : Prop :=
  ∀ (blk : Block) (n : Nat) (r r' : Reader), readBits blk n r = .bitBudget r' →
    r'.pos = r.pos ∧ r'.budget = r.budget ∧ ∀ n', readBits blk n' r' = .bitBudget r'

/-- With the mode table of the spec no block raises BitBudget: extraction ends at bit 128 with nothing left. -/
def Obligations.ExtractionUsesExactlyTheBudget : Prop :=
  ∀ (blk : Block) (m : Mode), ∃ raw r, extract blk (modeTable m) m = .value raw r ∧
    r.pos = 128 ∧ r.budget = 0 ∧ r.err = false

/-- The sequential extractor of R96 and the bit ranges of the opcode table read the same fields, in every mode; the raw field
set has its fixed shape and every field the mode lacks is 0: the items it has no bits for, and the endpoint fields of the
subsets it has not (10_state.md R31). -/
def Obligations.ExtractorReadsTheTableRanges : Prop :=
  ∀ (blk : Block) (m : Mode) (raw : RawFields) (r : Reader), extract blk (modeTable m) m = .value raw r →
    (m = 0 → decodeMode0 blk = .bc7m0 raw.part raw.r raw.g raw.b raw.p raw.idx1)
      ∧ (m = 1 → decodeMode1 blk =
          .bc7m1 raw.part (raw.r.take 4) (raw.g.take 4) (raw.b.take 4) [raw.p.getD 0 0, raw.p.getD 2 0] raw.idx1
        ∧ raw.p.getD 1 0 = raw.p.getD 0 0 ∧ raw.p.getD 3 0 = raw.p.getD 2 0)
      ∧ (m = 2 → decodeMode2 blk = .bc7m2 raw.part raw.r raw.g raw.b raw.idx1)
      ∧ (m = 3 → decodeMode3 blk =
          .bc7m3 raw.part (raw.r.take 4) (raw.g.take 4) (raw.b.take 4) (raw.p.take 4) raw.idx1)
      ∧ (m = 4 → decodeMode4 blk =
          .bc7m4 raw.rot raw.isb (raw.r.take 2) (raw.g.take 2) (raw.b.take 2) (raw.a.take 2) raw.idx1 raw.idx2)
      ∧ (m = 5 → decodeMode5 blk =
          .bc7m5 raw.rot (raw.r.take 2) (raw.g.take 2) (raw.b.take 2) (raw.a.take 2) raw.idx1 raw.idx2)
      ∧ (m = 6 → decodeMode6 blk =
          .bc7m6 (raw.r.take 2) (raw.g.take 2) (raw.b.take 2) (raw.a.take 2) (raw.p.take 2) raw.idx1)
      ∧ (m = 7 → decodeMode7 blk =
          .bc7m7 raw.part (raw.r.take 4) (raw.g.take 4) (raw.b.take 4) (raw.a.take 4) (raw.p.take 4) raw.idx1)
      ∧ (∀ j, 2 * (modeTable m).subsets ≤ j → raw.r.getD j 0 = 0 ∧ raw.g.getD j 0 = 0 ∧ raw.b.getD j 0 = 0 ∧
          raw.a.getD j 0 = 0 ∧ raw.p.getD j 0 = 0)
      ∧ (m = 4 ∨ m = 5 ∨ m = 6 → raw.part = 0)
      ∧ (m ≠ 4 → m ≠ 5 → raw.rot = 0 ∧ ∀ j, raw.idx2.getD j 0 = 0)
      ∧ (m ≠ 4 → raw.isb = 0)
      ∧ (m = 0 ∨ m = 1 ∨ m = 2 ∨ m = 3 → ∀ j, raw.a.getD j 0 = 0)
      ∧ (m = 2 ∨ m = 4 ∨ m = 5 → ∀ j, raw.p.getD j 0 = 0)
      ∧ raw.r.length = 6 ∧ raw.g.length = 6 ∧ raw.b.length = 6 ∧ raw.a.length = 6 ∧ raw.p.length = 6
      ∧ raw.idx1.length = 16 ∧ raw.idx2.length = 16

/-! ### The Endpoint Expander and the Interpolator -/

/-- R107: the raw value with its p-bit below it, shifted to the top of the byte, or-ed below precision 8 with itself shifted
right by the precision; always a byte. From precision 4 on this is the closed form of 43_endpoint_expander.md R108: the top
bits repeated below the value. -/
def Obligations.ExpandRepeatsTheTopBits : Prop :=
  ∀ v bits pbc q, pbc ≤ 1 → q ≤ 1 → 1 ≤ bits + pbc → bits + pbc ≤ 8 → v < 2 ^ bits →
    let n := if pbc = 1 then 2 * v + q else v
    let x := n * 2 ^ (8 - (bits + pbc))
    (bits + pbc < 8 → expand v bits pbc q = x ||| x / 2 ^ (bits + pbc))
      ∧ (bits + pbc = 8 → expand v bits pbc q = n)
      ∧ expand v bits pbc q < 256
      ∧ (4 ≤ bits + pbc → expand v bits pbc q = widen (bits + pbc) n)

/-- Corners of the expander: precision 8 is the identity on the raw field and its p-bit, and from precision 4 to 8 all zeros
give 0 and all ones give 255. -/
def Obligations.ExpandCornersAreExact : Prop :=
  (∀ v, v < 256 → expand v 8 0 0 = v)
    ∧ (∀ v q, v < 128 → q ≤ 1 → expand v 7 1 q = 2 * v + q)
    ∧ (∀ bits, 4 ≤ bits → bits ≤ 8 → expand 0 bits 0 0 = 0 ∧ expand (2 ^ bits - 1) bits 0 0 = 255)
    ∧ (∀ bits, 3 ≤ bits → bits ≤ 7 → expand 0 bits 1 0 = 0 ∧ expand (2 ^ bits - 1) bits 1 1 = 255)

/-- R116: the interpolated byte is ((64 - w) e0 + w e1 + 32) >> 6 with no bit lost. -/
def Obligations.InterpolateIsTheRoundedBlend : Prop :=
  ∀ (e0 e1 : Byte) (w k : Nat), w = 2 ∨ w = 3 ∨ w = 4 → k < 2 ^ w →
    (interpolate e0 e1 k w).toNat = mix e0.toNat e1.toNat (weight w k)

/-- The interpolated byte lies between the two endpoints, and equals the one endpoint at index 0 and the other at the
greatest index, for all three widths. -/
def Obligations.InterpolateStaysBetweenEndpoints : Prop :=
  ∀ (e0 e1 : Byte) (w k : Nat), w = 2 ∨ w = 3 ∨ w = 4 → k < 2 ^ w →
    min e0.toNat e1.toNat ≤ (interpolate e0 e1 k w).toNat
      ∧ (interpolate e0 e1 k w).toNat ≤ max e0.toNat e1.toNat
      ∧ interpolate e0 e1 0 w = e0 ∧ interpolate e0 e1 (2 ^ w - 1) w = e1

/-! ### The commands -/

/-- R122: a NOP, command word 0, changes no state at all. -/
def Obligations.NopChangesNothing : Prop :=
  decodeCommand 0x00000000 = .ok .nop ∧ ∀ s : State, exec .nop s = .next s ∧ regWrite 32 0x10 0 s = .next s

/-- R168: a CMD write of the reserved command takes IllegalCommand, whatever BLK holds; nothing but STATUS changes. A CMD
write with one of bits 31:2 set is refused instead, its low bits whatever they are. -/
def Obligations.ReservedCommandTakesIllegalCommand : Prop :=
  ∀ s : State,
    (∃ t, exec .cmdReserved s = .next t ∧ regWrite 32 0x10 3 s = .next t ∧ t.status = 0x0000000E ∧
      statusFault t.status = true ∧ statusFcause t.status = 3 ∧ sameBesideStatus s t)
    ∧ ∀ w : Word, w.extractLsb' 2 30 ≠ 0 → ∃ e, regWrite 32 0x10 w s = .refused e

/-- R166: DECODE and MODEQ of a block whose byte 0 is 0 take ReservedMode, whatever the other bits hold; nothing but STATUS
changes. The reserved block as an instruction does the same in every state. -/
def Obligations.ReservedBlockTakesReservedMode : Prop :=
  (∀ s : State, blkHeld s = true → (blkValue s).extractLsb' 0 8 = 0 →
      ∃ t, exec .decode s = .next t ∧ t.status = 0x00000006 ∧ sameBesideStatus s t)
    ∧ (∀ s : State, s.blk0.held = true → s.blk0.value.extractLsb' 0 8 = 0 →
      ∃ t, exec .modeq s = .next t ∧ t.status = 0x00000006 ∧ sameBesideStatus s t)
    ∧ (∀ (rest : BitVec 120) (s : State),
      ∃ t, exec (.bc7Reserved rest) s = .next t ∧ t.status = 0x00000006 ∧ sameBesideStatus s t)

/-- MODEQ, command word 2, reports the position of the lowest set bit of block byte 0 in STATUS, with VALID 0, and takes
ReservedMode when the byte is 0; it writes no TEX register (45_block_decoder.md R124). Afterwards a TEX read answers with a
free value, the unspecified word of 10_state.md R27 (log entry 16). A BLK0 without a value is CommandsRunWithoutBlock. -/
def Obligations.ModeqReportsTheMode : Prop :=
  decodeCommand 0x00000002 = .ok .modeq ∧ ∀ s : State, s.blk0.held = true →
    ∃ t, exec .modeq s = .next t ∧ sameBesideStatus s t
      ∧ (∀ m : Mode, s.blk0.value.getLsbD m.val = true → (∀ j, j < m.val → s.blk0.value.getLsbD j = false) →
        t.status = BitVec.ofNat 32 (0x80 + 16 * m.val) ∧ statusValid t.status = false ∧ statusFault t.status = false ∧
          statusModeValid t.status = true ∧ (statusMode t.status).toNat = m.val)
      ∧ (s.blk0.value.extractLsb' 0 8 = 0 → t.status = 0x00000006)
      ∧ ∀ i : Fin 16, regRead 32 (0x20 + 4 * i.val) t = .next (Config.freeTexWord t.freeUsed i)

/-- DECODE and MODEQ go on in every state, also while BLK words they read hold no value: such a word is met as a free value,
whatever it is, and the words that hold one are met as written. DECODE is then the instruction of the block so put together;
MODEQ reports the lowest set bit of its byte 0; BLK, memory and the host stay, and the model's counter moves on exactly when a
free value was met. The spec has its model refuse these commands (70_reset_and_hazards.md R186): a host inside the contract has
no step for a CMD write of DECODE while some BLK word holds no value, nor of MODEQ while BLK0 holds none, and has the machine's
step for every other CMD write. That the machine itself runs the commands is this model's choice (log entry 16). -/
def Obligations.CommandsRunWithoutBlock : Prop :=
  ∀ s : State,
    (∀ k, ((getBlk s k).held = true → operandWord s k = (getBlk s k).value)
      ∧ ((getBlk s k).held = false → operandWord s k = Config.freeBlkWord s.freeUsed k)
      ∧ (operandBlock s).extractLsb' (32 * k.val) 32 = operandWord s k)
    ∧ (∃ u, exec (decodeBlock (operandBlock s)) s = .next u ∧ sameBesideStatusTex s u
      ∧ exec .decode s = .next { u with freeUsed := if ∀ k, (getBlk s k).held = true then s.freeUsed else s.freeUsed + 1 })
    ∧ (∃ t, exec .modeq s = .next t ∧ t.tex = s.tex ∧ sameBlk s t ∧ sameMemory s t ∧ t.pending = s.pending
      ∧ t.readData = s.readData ∧ t.callResult = s.callResult
      ∧ (t.freeUsed = if s.blk0.held = true then s.freeUsed else s.freeUsed + 1)
      ∧ (∀ m : Mode, (operandWord s 0).getLsbD m.val = true → (∀ j, j < m.val → (operandWord s 0).getLsbD j = false) →
        t.status = BitVec.ofNat 32 (0x80 + 16 * m.val))
      ∧ ((operandWord s 0).extractLsb' 0 8 = 0 → t.status = 0x00000006))
    ∧ (∀ (w : Word) (rest : List HostAccess), s.pending = .regWrite 32 0x10 w :: rest →
      (contractStep s = none ↔ (w = 1 ∧ ∃ k, (getBlk s k).held = false) ∨ (w = 2 ∧ s.blk0.held = false))
      ∧ (contractStep s ≠ none → contractStep s = some (step s)))

/-- R133: every block whose byte 0 is not 0 decodes, whatever its other bits: STATUS is 0x81 | (m << 4) for the lowest set
bit m, and only STATUS and TEX change. A block whose byte 0 is 0 takes ReservedMode and writes no TEX register. -/
def Obligations.EveryNonReservedBlockDecodes : Prop :=
  ∀ s : State, blkHeld s = true →
    ((blkValue s).extractLsb' 0 8 ≠ 0 →
      ∃ (t : State) (m : Mode), exec .decode s = .next t ∧ (blkValue s).getLsbD m.val = true ∧
        (∀ j, j < m.val → (blkValue s).getLsbD j = false) ∧ t.status = BitVec.ofNat 32 (0x81 + 16 * m.val) ∧
        sameBesideStatusTex s t)
    ∧ ((blkValue s).extractLsb' 0 8 = 0 →
      ∃ t, exec .decode s = .next t ∧ statusFault t.status = true ∧ statusFcause t.status = 1 ∧ sameBesideStatus s t)

/-- The generic sequencer and the mode rules agree: DECODE in any state whose BLK words hold a value is the instruction that
the opcode table reads from the block. -/
def Obligations.DecodeRunsTheBlockInstruction : Prop :=
  ∀ s : State, blkHeld s = true → exec .decode s = exec (decodeBlock (blkValue s)) s

/-- Under any mode table, a DECODE whose extraction fails takes BitBudget: STATUS is 0x8A | (m << 4) and no TEX register is
written. -/
def Obligations.FailedExtractionTakesBitBudget : Prop :=
  ∀ (table : Mode → ModeDescriptor) (s : State) (m : Mode) (r : Reader),
    lowestSetBit (byte0 (operandBlock s)) = some m → extract (operandBlock s) (table m) m = .bitBudget r →
      (runDecode table s).status = BitVec.ofNat 32 (0x8A + 16 * m.val) ∧ sameBesideStatus s (runDecode table s)

/-! ### The eight modes -/

/-- Mode 0: status 0x81, 5-bit colour endpoints with their private p-bits, 3-bit weights, alpha 255. -/
def Obligations.Mode0Texels : Prop :=
  ∀ (part : Nat) (r g b p idx : List Nat) (s : State), (Instr.bc7m0 part r g b p idx).wellFormed = true →
    ∃ t, exec (.bc7m0 part r g b p idx) s = .next t ∧ t.status = 0x81 ∧ sameBesideStatusTex s t
      ∧ decodesTo (.bc7m0 part r g b p idx) s t
      ∧ ∀ i : Fin 16,
        let q := 2 * partition 3 part i.val
        let w := weight 3 (idx.getD i.val 0)
        let e := fun (xs : List Nat) (n : Nat) => widen 5 (2 * xs.getD (q + n) 0 + p.getD (q + n) 0)
        texelIs t i (mix (e r 0) (e r 1) w) (mix (e g 0) (e g 1) w) (mix (e b 0) (e b 1) w) 255

/-- Mode 1: status 0x91, 7-bit colour endpoints with the p-bit of their subset, 3-bit weights, alpha 255. -/
def Obligations.Mode1Texels : Prop :=
  ∀ (part : Nat) (r g b p idx : List Nat) (s : State), (Instr.bc7m1 part r g b p idx).wellFormed = true →
    ∃ t, exec (.bc7m1 part r g b p idx) s = .next t ∧ t.status = 0x91 ∧ sameBesideStatusTex s t
      ∧ decodesTo (.bc7m1 part r g b p idx) s t
      ∧ ∀ i : Fin 16,
        let sub := partition 2 part i.val
        let w := weight 3 (idx.getD i.val 0)
        let e := fun (xs : List Nat) (n : Nat) => widen 7 (2 * xs.getD (2 * sub + n) 0 + p.getD sub 0)
        texelIs t i (mix (e r 0) (e r 1) w) (mix (e g 0) (e g 1) w) (mix (e b 0) (e b 1) w) 255

/-- Mode 2: status 0xA1, 5-bit colour endpoints without p-bits, 2-bit weights, alpha 255. -/
def Obligations.Mode2Texels : Prop :=
  ∀ (part : Nat) (r g b idx : List Nat) (s : State), (Instr.bc7m2 part r g b idx).wellFormed = true →
    ∃ t, exec (.bc7m2 part r g b idx) s = .next t ∧ t.status = 0xA1 ∧ sameBesideStatusTex s t
      ∧ decodesTo (.bc7m2 part r g b idx) s t
      ∧ ∀ i : Fin 16,
        let q := 2 * partition 3 part i.val
        let w := weight 2 (idx.getD i.val 0)
        let e := fun (xs : List Nat) (n : Nat) => widen 5 (xs.getD (q + n) 0)
        texelIs t i (mix (e r 0) (e r 1) w) (mix (e g 0) (e g 1) w) (mix (e b 0) (e b 1) w) 255

/-- Mode 3: status 0xB1, 8-bit colour endpoints that are the raw field and its private p-bit, 2-bit weights, alpha 255. -/
def Obligations.Mode3Texels : Prop :=
  ∀ (part : Nat) (r g b p idx : List Nat) (s : State), (Instr.bc7m3 part r g b p idx).wellFormed = true →
    ∃ t, exec (.bc7m3 part r g b p idx) s = .next t ∧ t.status = 0xB1 ∧ sameBesideStatusTex s t
      ∧ decodesTo (.bc7m3 part r g b p idx) s t
      ∧ ∀ i : Fin 16,
        let q := 2 * partition 2 part i.val
        let w := weight 2 (idx.getD i.val 0)
        let e := fun (xs : List Nat) (n : Nat) => 2 * xs.getD (q + n) 0 + p.getD (q + n) 0
        texelIs t i (mix (e r 0) (e r 1) w) (mix (e g 0) (e g 1) w) (mix (e b 0) (e b 1) w) 255

/-- Mode 4: status 0xC1; the index-selection bit gives colour the 3-bit plane and alpha the 2-bit one or the reverse, and
rotation then swaps alpha with R, G or B. -/
def Obligations.Mode4Texels : Prop :=
  ∀ (rot isb : Nat) (r g b a idx idx2 : List Nat) (s : State), (Instr.bc7m4 rot isb r g b a idx idx2).wellFormed = true →
    ∃ t, exec (.bc7m4 rot isb r g b a idx idx2) s = .next t ∧ t.status = 0xC1 ∧ sameBesideStatusTex s t
      ∧ decodesTo (.bc7m4 rot isb r g b a idx idx2) s t
      ∧ ∀ i : Fin 16,
        let wc := if isb = 1 then weight 3 (idx2.getD i.val 0) else weight 2 (idx.getD i.val 0)
        let wa := if isb = 1 then weight 2 (idx.getD i.val 0) else weight 3 (idx2.getD i.val 0)
        let c := fun (xs : List Nat) => mix (widen 5 (xs.getD 0 0)) (widen 5 (xs.getD 1 0)) wc
        let al := mix (widen 6 (a.getD 0 0)) (widen 6 (a.getD 1 0)) wa
        (rot = 0 → texelIs t i (c r) (c g) (c b) al)
          ∧ (rot = 1 → texelIs t i al (c g) (c b) (c r))
          ∧ (rot = 2 → texelIs t i (c r) al (c b) (c g))
          ∧ (rot = 3 → texelIs t i (c r) (c g) al (c b))

/-- Mode 5: status 0xD1; colour from the primary and alpha from the secondary 2-bit plane, 8-bit alpha endpoints as stored,
then rotation. -/
def Obligations.Mode5Texels : Prop :=
  ∀ (rot : Nat) (r g b a idx idx2 : List Nat) (s : State), (Instr.bc7m5 rot r g b a idx idx2).wellFormed = true →
    ∃ t, exec (.bc7m5 rot r g b a idx idx2) s = .next t ∧ t.status = 0xD1 ∧ sameBesideStatusTex s t
      ∧ decodesTo (.bc7m5 rot r g b a idx idx2) s t
      ∧ ∀ i : Fin 16,
        let c := fun (xs : List Nat) =>
          mix (widen 7 (xs.getD 0 0)) (widen 7 (xs.getD 1 0)) (weight 2 (idx.getD i.val 0))
        let al := mix (a.getD 0 0) (a.getD 1 0) (weight 2 (idx2.getD i.val 0))
        (rot = 0 → texelIs t i (c r) (c g) (c b) al)
          ∧ (rot = 1 → texelIs t i al (c g) (c b) (c r))
          ∧ (rot = 2 → texelIs t i (c r) al (c b) (c g))
          ∧ (rot = 3 → texelIs t i (c r) (c g) al (c b))

/-- Mode 6: status 0xE1; all four lanes from the one 4-bit plane, endpoints that are the raw field and the endpoint's p-bit,
alpha included. -/
def Obligations.Mode6Texels : Prop :=
  ∀ (r g b a p idx : List Nat) (s : State), (Instr.bc7m6 r g b a p idx).wellFormed = true →
    ∃ t, exec (.bc7m6 r g b a p idx) s = .next t ∧ t.status = 0xE1 ∧ sameBesideStatusTex s t
      ∧ decodesTo (.bc7m6 r g b a p idx) s t
      ∧ ∀ i : Fin 16,
        let c := fun (xs : List Nat) =>
          mix (2 * xs.getD 0 0 + p.getD 0 0) (2 * xs.getD 1 0 + p.getD 1 0) (weight 4 (idx.getD i.val 0))
        texelIs t i (c r) (c g) (c b) (c a)

/-- Mode 7: status 0xF1; two subsets, 6-bit endpoints with private p-bits, alpha included, one 2-bit plane. -/
def Obligations.Mode7Texels : Prop :=
  ∀ (part : Nat) (r g b a p idx : List Nat) (s : State), (Instr.bc7m7 part r g b a p idx).wellFormed = true →
    ∃ t, exec (.bc7m7 part r g b a p idx) s = .next t ∧ t.status = 0xF1 ∧ sameBesideStatusTex s t
      ∧ decodesTo (.bc7m7 part r g b a p idx) s t
      ∧ ∀ i : Fin 16,
        let q := 2 * partition 2 part i.val
        let w := weight 2 (idx.getD i.val 0)
        let e := fun (xs : List Nat) (n : Nat) => widen 6 (2 * xs.getD (q + n) 0 + p.getD (q + n) 0)
        texelIs t i (mix (e r 0) (e r 1) w) (mix (e g 0) (e g 1) w) (mix (e b 0) (e b 1) w) (mix (e a 0) (e a 1) w)

/-- R74: a well-formed `solid` decodes to sixteen texels of its colour, and it is well-formed exactly when the four bytes
agree in their low bit. -/
def Obligations.SolidDecodesToItsColour : Prop :=
  ∀ (r g b a : Byte) (s : State),
    ((solid r g b a).isSome = true ↔
        (g.getLsbD 0 = r.getLsbD 0 ∧ b.getLsbD 0 = r.getLsbD 0 ∧ a.getLsbD 0 = r.getLsbD 0))
      ∧ ∀ i, solid r g b a = some i → i.wellFormed = true ∧
        ∃ t, exec i s = .next t ∧ t.status = 0xE1 ∧ ∀ j : Fin 16, t.tex[j] = a ++ b ++ g ++ r

/-- R130: decoding a block with rotation 1 gives, at every texel, the red and alpha bytes of the same block decoded with
rotation 0, swapped (mode 4 block bits 6:5 and mode 5 block bits 7:6 hold the rotation). -/
def Obligations.RotationOneSwapsRedAndAlpha : Prop :=
  ∀ s t s' t' : State, blkHeld s = true → blkHeld s' = true →
    ((matchesMode (blkValue s) 4 = true ∧ (blkValue s).extractLsb' 5 2 = 0 ∧
        blkValue s' = blkValue s ||| (1 : Block) <<< 5)
      ∨ (matchesMode (blkValue s) 5 = true ∧ (blkValue s).extractLsb' 6 2 = 0 ∧
        blkValue s' = blkValue s ||| (1 : Block) <<< 6)) →
    exec .decode s = .next t → exec .decode s' = .next t' →
      ∀ i : Fin 16, lane t'.tex[i] 0 = lane t.tex[i] 3 ∧ lane t'.tex[i] 3 = lane t.tex[i] 0 ∧
        lane t'.tex[i] 1 = lane t.tex[i] 1 ∧ lane t'.tex[i] 2 = lane t.tex[i] 2

/-! ### Whole-machine rules about instructions -/

/-- The frame of every instruction: BLK, host memory and the host are never changed; TEX only by a command that ends with
VALID set, which is a DECODE or one of the eight modes; the model's counter of free values only by a DECODE or MODEQ of a BLK
word without a value (log entry 16). -/
def Obligations.InstructionFrame : Prop :=
  ∀ (i : Instr) (s t : State), exec i s = .next t →
    sameBlk s t ∧ sameMemory s t ∧ t.pending = s.pending ∧ t.readData = s.readData ∧ t.callResult = s.callResult
      ∧ ((i = .decode → blkHeld s = true) → (i = .modeq → s.blk0.held = true) → t.freeUsed = s.freeUsed)
      ∧ (i = .nop ∨ i = .modeq ∨ i = .cmdReserved ∨ (∃ rest, i = .bc7Reserved rest) → t.tex = s.tex)
      ∧ (t.tex ≠ s.tex → statusValid t.status = true)

/-- No state survives but BLK, STATUS and TEX (10_state.md R34), so over held words two DECODEs of the same block in any two
states end with the same STATUS, and with the same TEX when they succeed, and decoding again changes nothing; likewise two MODEQs
of the same BLK0. `operandBlock` is `blk`, with a free value for each word that holds none: over such words, which the spec
has its model refuse (70_reset_and_hazards.md R186), the free values decide too, which is the model's choice (log entry 16). -/
def Obligations.DecodeDependsOnBlkOnly : Prop :=
  (∀ s u t v : State, operandBlock s = operandBlock u → exec .decode s = .next t → exec .decode u = .next v →
      t.status = v.status ∧ (statusValid t.status = true → t.tex = v.tex)
        ∧ (blkHeld s = true → exec .decode t = .next t))
    ∧ (∀ s u t v : State, operandWord s 0 = operandWord u 0 → exec .modeq s = .next t → exec .modeq u = .next v →
      t.status = v.status ∧ t.tex = s.tex
        ∧ (s.blk0.held = true → exec .modeq t = .next t))

/-- R170: a recorded fault stays through a NOP and through any STATUS write, and the next DECODE, MODEQ or reserved command
starts from a cleared STATUS: its outcome does not depend on the STATUS before. -/
def Obligations.FaultLeavesWithTheNextCommand : Prop :=
  ∀ (s : State) (w : Word),
    exec .nop s = .next s ∧ regWrite 32 0x14 w s = .next s
      ∧ exec .decode (setStatus s w) = exec .decode s ∧ exec .modeq (setStatus s w) = exec .modeq s
      ∧ exec .cmdReserved (setStatus s w) = exec .cmdReserved s

/-- R169: fault entry sets the five STATUS fields and changes nothing else, for each of the three faults. -/
def Obligations.FaultEntryWritesStatusOnly : Prop :=
  ∀ (f : CoreFault) (s : State),
    statusValid (takeFault f s).status = false ∧ statusFault (takeFault f s).status = true
      ∧ statusFcause (takeFault f s).status = f.code
      ∧ (∀ m, f = .bitBudget m →
        statusMode (takeFault f s).status = BitVec.ofNat 3 m.val ∧ statusModeValid (takeFault f s).status = true)
      ∧ ((∀ m, f ≠ .bitBudget m) →
        statusMode (takeFault f s).status = 0 ∧ statusModeValid (takeFault f s).status = false)
      ∧ statusReserved (takeFault f s).status = 0 ∧ sameBesideStatus s (takeFault f s)

/-! ### The register block -/

/-- R28: exactly the 32-bit accesses at the offsets of the register map are admitted; every other one is refused. -/
def Obligations.AdmittedAccessesAreTheRegisterMap : Prop :=
  (∀ (bits off : Nat) (n : RegName), admitAccess bits off = .ok n ↔ bits = 32 ∧ off = n.offset)
    ∧ (∀ (bits off : Nat) (s : State), (∀ n : RegName, ¬(bits = 32 ∧ off = n.offset)) →
      (∃ e, regRead bits off s = .refused e) ∧ ∀ v, ∃ e, regWrite bits off v s = .refused e)
    ∧ (∀ (n : RegName) (v : Word) (s : State), n ≠ .cmd → (∀ k, n ≠ .blk k) → regWrite 32 n.offset v s = .next s)

/-- What a register read returns (10_state.md R22, R27): STATUS always, CMD always 0, BLKk once it holds a value, TEX[i] while
VALID is 1. Where the spec leaves the word unspecified the read answers with a free value, which is the model's choice (log
entry 16). -/
def Obligations.RegisterReadsReturn : Prop :=
  ∀ s : State,
    regRead 32 RegName.status.offset s = .next s.status ∧ regRead 32 RegName.cmd.offset s = .next 0
      ∧ (∀ k : Fin 4,
        ((getBlk s k).held = true → regRead 32 (RegName.blk k).offset s = .next (getBlk s k).value)
          ∧ ((getBlk s k).held = false → regRead 32 (RegName.blk k).offset s = .next (Config.freeBlkWord s.freeUsed k)))
      ∧ (∀ i : Fin 16,
        (s.status.getLsbD 0 = true → regRead 32 (RegName.tex i).offset s = .next s.tex[i])
          ∧ (s.status.getLsbD 0 = false → regRead 32 (RegName.tex i).offset s = .next (Config.freeTexWord s.freeUsed i)))

/-- R23: a BLKk write is read back, and no command in between changes that; it puts its bytes at blk[32k+31:32k], and it
changes no other register and no other state. -/
def Obligations.BlkWriteReadsBack : Prop :=
  ∀ (s : State) (k : Fin 4) (v : Word), ∃ t, regWrite 32 (4 * k.val) v s = .next t
    ∧ regRead 32 (4 * k.val) t = .next v
    ∧ (∀ (i : Instr) (u : State), exec i t = .next u → regRead 32 (4 * k.val) u = .next v)
    ∧ (blkValue t).extractLsb' (32 * k.val) 32 = v
    ∧ (∀ j : Fin 4, j ≠ k → getBlk t j = getBlk s j)
    ∧ t.status = s.status ∧ t.tex = s.tex ∧ sameMemory s t ∧ sameHost s t

/-- R24: a CMD write runs the command its low two bits name, and is refused when one of bits 31:2 is set; CMD reads as 0. -/
def Obligations.CmdWriteStartsItsCommand : Prop :=
  ∀ (s : State) (w : Word),
    regWrite 32 0x10 0 s = exec .nop s ∧ regWrite 32 0x10 1 s = exec .decode s
      ∧ regWrite 32 0x10 2 s = exec .modeq s ∧ regWrite 32 0x10 3 s = exec .cmdReserved s
      ∧ (w.extractLsb' 2 30 ≠ 0 → regWrite 32 0x10 w s = .refused (.commandHighBits w))
      ∧ regRead 32 0x10 s = .next 0

/-! ### Steps, reset and the invariant -/

/-- A step whose next access is a CMD write of a word that decodes to `i` is exec of `i` on the state past that access. The
queue of accesses is the model's own (log entry 12). -/
def Obligations.StepRunsTheDecodedInstruction : Prop :=
  ∀ (s : State) (w : Word) (rest : List HostAccess) (i : Instr), s.pending = .regWrite 32 0x10 w :: rest →
    decodeCommand w = .ok i → step s = exec i { s with pending := rest }

/-- A step whose next access is the CMD write DECODE, with all of BLK held, is exec of the instruction that the block in BLK
decodes to, on the state past that access (the queue: log entry 12; block rows as instructions: log entry 5). -/
def Obligations.StepRunsTheLoadedBlock : Prop :=
  ∀ (s : State) (rest : List HostAccess), s.pending = .regWrite 32 0x10 1 :: rest → blkHeld s = true →
    step s = exec (decodeBlock (blkValue s)) { s with pending := rest }

/-- With nothing pending the core is idle and holds its state (60_exceptions.md R182); that such a step is a next state, and
that the host waits too, is the model's choice (log entry 12). -/
def Obligations.IdleStepHoldsTheState : Prop := ∀ s : State, s.pending = [] → step s = .next s

/-- What reset leaves, from any state: STATUS 0 in every field, and no value in BLK and TEX (10_state.md R36), whose reads answer
with free values (log entry 16). For a host inside the contract there is then no step for a read of BLKk or TEX[i]
(70_reset_and_hazards.md R184), nor for the commands DECODE and MODEQ (R186), while BLK writes, the other CMD writes and STATUS
reads have theirs. Host memory and the accesses still pending stay as they were, which is the model's choice (log
entry 17). -/
def Obligations.ResetLeavesNoValue : Prop :=
  ∀ (s : State) (rest : List HostAccess), s.pending = .platformReset :: rest →
    ∃ t, step s = .next t ∧ t.status = 0 ∧ State.reset.status = 0
      ∧ (∀ n : RegName, regDefined t n = regDefined State.reset n
        ∧ (regDefined State.reset n = true ↔ n = .cmd ∨ n = .status))
      ∧ (∀ k : Fin 4, regRead 32 (RegName.blk k).offset t = .next (Config.freeBlkWord t.freeUsed k)
        ∧ regRead 32 (RegName.blk k).offset State.reset = .next (Config.freeBlkWord State.reset.freeUsed k))
      ∧ (∀ i : Fin 16, regRead 32 (RegName.tex i).offset t = .next (Config.freeTexWord t.freeUsed i)
        ∧ regRead 32 (RegName.tex i).offset State.reset = .next (Config.freeTexWord State.reset.freeUsed i))
      ∧ (∀ n : RegName, accessDefined (.regRead 32 n.offset) t = true ↔ n = .cmd ∨ n = .status)
      ∧ (∀ w : Word, accessDefined (wrCmd w) t = true ↔ w ≠ 1 ∧ w ≠ 2)
      ∧ (∀ (k : Fin 4) (v : Word), accessDefined (wrBlk k v) t = true)
      ∧ t.pending = rest ∧ sameMemory s t

/-- The invariant holds right after reset, and with it the invariant of runs inside the host's contract. -/
def Obligations.ResetMeetsTheInvariant : Prop := State.reset.Inv ∧ State.reset.ContractInv

/-- Every step keeps the invariant: the legal STATUS combinations of R25, no BitBudget ever recorded, a BLK register without a
value in its one form (log entry 2), and host memory in its canonical form. Every step inside the host's contract keeps besides
that VALID is set only with all of BLK written and MODE_VALID only with BLK0 written (70_reset_and_hazards.md R186); a step that
meets a free BLK word need not (log entry 16). -/
def Obligations.EveryStepKeepsTheInvariant : Prop :=
  (∀ s t : State, s.Inv → step s = .next t → t.Inv)
    ∧ ∀ s t : State, s.ContractInv → contractStep s = some (.next t) → t.ContractInv

/-- A register read at an offset of the map goes on, hands its value to the host and changes no register and no memory, so the
same read again returns the same value where the spec defines it (20_memory.md R47); where it does not, the value is free and
the model's counter moves on (log entry 16), and a host inside the contract has no such step (10_state.md R27). A host-memory read hands over the byte present and changes nothing else; of a byte that
nothing stored it stops with hostByteUnset, which is the model's choice (log entry 4). The queue is the model's own (log
entry 12). -/
def Obligations.ReadsHaveNoSideEffect : Prop :=
  (∀ (s : State) (n : RegName) (rest : List HostAccess), s.pending = .regRead 32 n.offset :: rest →
      ∃ t v, step s = .next t ∧ t.readData = some v ∧ regRead 32 n.offset s = .next v
        ∧ sameBlk s t ∧ t.status = s.status ∧ t.tex = s.tex ∧ sameMemory s t ∧ t.pending = rest
        ∧ t.callResult = s.callResult
        ∧ (regDefined s n = true → t.freeUsed = s.freeUsed ∧ regRead 32 n.offset t = .next v)
        ∧ (regDefined s n = false → t.freeUsed = s.freeUsed + 1)
        ∧ contractStep s = if regDefined s n = true then some (step s) else none)
    ∧ (∀ (s : State) (a : Nat) (rest : List HostAccess), s.pending = .memRead a :: rest →
      (∀ b, Memory.read s.mem a = some b →
        ∃ t, step s = .next t ∧ t.readData = some (b.setWidth 32) ∧ sameBlk s t ∧ t.status = s.status ∧ t.tex = s.tex
          ∧ t.mem = s.mem ∧ t.pending = rest ∧ t.callResult = s.callResult ∧ t.freeUsed = s.freeUsed)
      ∧ (Memory.read s.mem a = none → step s = .fault (.hostByteUnset a)))

/-! ### Host memory -/

/-- A store access of the host: each byte reads back at its own address, every other address reads as before, and the core
and the rest of the host are as they were (20_memory.md R37, R44). The queue is the model's own (log entry 12). -/
def Obligations.StoreAccessWritesItsBytes : Prop :=
  ∀ (s : State) (a : Nat) (bytes : List Byte) (rest : List HostAccess), s.pending = .memWrite a bytes :: rest →
    ∃ t, step s = .next t ∧ (∀ j, j < bytes.length → Memory.read t.mem (a + j) = bytes[j]?)
      ∧ (∀ x, (x < a ∨ a + bytes.length ≤ x) → Memory.read t.mem x = Memory.read s.mem x)
      ∧ sameBlk s t ∧ t.status = s.status ∧ t.tex = s.tex ∧ t.pending = rest ∧ t.readData = s.readData
      ∧ t.callResult = s.callResult ∧ t.freeUsed = s.freeUsed

/-! ### The host functions -/

/-- What `output_size` returns for each tag, and that nothing else changes and no memory byte matters
(46_host_interface.md R145); a call whose width, height or products do not fit SIZE_BITS is refused, which R146 says of every
call and the model takes to hold of this one too (log entry 15). -/
def Obligations.OutputSizeReturnsTheProduct : Prop :=
  ∀ (bits : Nat) (f : FormatArg) (w h : Nat) (s : State),
    (sizesFit bits w h = true →
      ∃ t n, callOutputSize bits f w h s = .next t ∧ onlyResult s t (.size n)
        ∧ (formatOf f = .bc7Unorm → n = w * h * 4)
        ∧ (formatOf f = .bc6hSignedFloat ∨ formatOf f = .bc6hUnsignedFloat → n = w * h * 6)
        ∧ (formatOf f = .unknown → n = 0))
    ∧ (sizesFit bits w h = true ↔
      w < 2 ^ bits ∧ h < 2 ^ bits ∧ w * h * 6 < 2 ^ bits ∧ 16 * ((w + 3) / 4) * ((h + 3) / 4) < 2 ^ bits)
    ∧ (sizesFit bits w h = false → callOutputSize bits f w h s = .refused .sizeTooWide)

/-- The admissions of `decode` (46_host_interface.md R146, R147, R153): a call is refused when a width, a size or a product does
not fit, when its width or height is 0, and when its destination is too small; `output_size` of width or height 0 returns
0. A `block_mode` whose span size does not fit is refused too. Which refusal is named when several apply is the model's choice (log entries 10 and 15). -/
def Obligations.DecodeCallRefusals : Prop :=
  ∀ (bits : Nat) (args : DecodeArgs) (s : State),
    (argsFit bits args = false → callDecode bits args s = .refused .sizeTooWide)
      ∧ (argsFit bits args = true ↔ sizesFit bits args.width args.height = true ∧
        args.srcSize < 2 ^ bits ∧ args.dstSize < 2 ^ bits)
      ∧ (argsFit bits args = true → args.width = 0 ∨ args.height = 0 →
        callDecode bits args s = .refused .emptyImage)
      ∧ (argsFit bits args = true → args.width ≠ 0 → args.height ≠ 0 →
        args.dstSize < outputSize (formatOf args.format) args.width args.height →
        callDecode bits args s = .refused .destinationTooSmall)
      ∧ (∀ (f : FormatArg) (w h : Nat), sizesFit bits w h = true → w = 0 ∨ h = 0 →
        ∃ t, callOutputSize bits f w h s = .next t ∧ t.callResult = some (.size 0))
      ∧ (∀ query : BlockModeArgs, 2 ^ bits ≤ query.srcSize → callBlockMode bits query s = .refused .sizeTooWide)

/-- A BC6H call fails and touches nothing; an unknown tag fails, writes only the destination buffer, each byte there being a free
value (log entry 8), and no core register; a BC7 call with too small a source span fails and touches nothing
(46_host_interface.md R152, R154, R158). That the call with an unknown tag goes on also where its destination overlaps its own
source span is the model's choice (log entry 19). -/
def Obligations.FailingFormatsTouchNothing : Prop :=
  ∀ (bits : Nat) (args : DecodeArgs) (s : State),
    (admitted bits args .bc6hSignedFloat ∨ admitted bits args .bc6hUnsignedFloat →
        ∃ t, callDecode bits args s = .next t ∧ onlyResult s t (.decode false))
      ∧ (admitted bits args .unknown →
        ∃ t, callDecode bits args s = .next t ∧ t.callResult = some (.decode false) ∧ sameBlk s t ∧ t.status = s.status
          ∧ t.tex = s.tex ∧ ∀ a, (a < args.dst ∨ args.dst + args.dstSize ≤ a) →
            Memory.read t.mem a = Memory.read s.mem a)
      ∧ (admitted bits args .bc7Unorm → args.srcSize < 16 * ((args.width + 3) / 4) * ((args.height + 3) / 4) →
        ∃ t, callDecode bits args s = .next t ∧ onlyResult s t (.decode false))

/-- R157: a reserved block anywhere in the image makes `decode` fail with the destination, and every core register, as they
were. -/
def Obligations.ReservedBlockFailsTheWholeImage : Prop :=
  ∀ (bits : Nat) (args : DecodeArgs) (s : State), admitted bits args .bc7Unorm →
    16 * ((args.width + 3) / 4) * ((args.height + 3) / 4) ≤ args.srcSize →
    (∀ x y, x < (args.width + 3) / 4 → y < (args.height + 3) / 4 → (Memory.read s.mem (imageBlock args x y)).isSome = true) →
    (∃ x y, x < (args.width + 3) / 4 ∧ y < (args.height + 3) / 4 ∧ Memory.read s.mem (imageBlock args x y) = some 0) →
    ∃ t, callDecode bits args s = .next t ∧ onlyResult s t (.decode false)

/-- A BC7 `decode` that returns has changed no byte of host memory outside the image's `width * height * 4` bytes, whatever
the rest of the call did: guard bytes after the image stay. Nor has it changed a byte of its source span, whether or
not the two spans overlap: a run that would is refused (46_host_interface.md R160; that this holds of the call's own writes
is log entry 7). -/
def Obligations.DecodeWritesInsideTheImageOnly : Prop :=
  ∀ (bits : Nat) (args : DecodeArgs) (s t : State), formatOf args.format = .bc7Unorm → callDecode bits args s = .next t →
    ∀ a, (a < args.dst ∨ args.dst + args.width * args.height * 4 ≤ a) ∨
        (args.src ≤ a ∧ a < args.src + 16 * ((args.width + 3) / 4) * ((args.height + 3) / 4)) →
      Memory.read t.mem a = Memory.read s.mem a

/-- The whole image, for spans that do not overlap: with every source block listed and none reserved, and the two spans apart, `decode` succeeds, and the
four bytes of every pixel (x, y) are the bytes R, G, B, A of texel 4 (y mod 4) + (x mod 4) of block (x div 4, y div 4). -/
def Obligations.DecodeWritesTheWholeImage : Prop :=
  ∀ (bits : Nat) (args : DecodeArgs) (s : State) (blocks : Nat → Nat → Block), admitted bits args .bc7Unorm →
    16 * ((args.width + 3) / 4) * ((args.height + 3) / 4) ≤ args.srcSize →
    (∀ x y j, x < (args.width + 3) / 4 → y < (args.height + 3) / 4 → j < 16 →
      Memory.read s.mem (imageBlock args x y + j) = some ((blocks x y).extractLsb' (8 * j) 8)) →
    (∀ x y, x < (args.width + 3) / 4 → y < (args.height + 3) / 4 → (blocks x y).extractLsb' 0 8 ≠ 0) →
    (args.src + 16 * ((args.width + 3) / 4) * ((args.height + 3) / 4) ≤ args.dst ∨
      args.dst + args.width * args.height * 4 ≤ args.src) →
    ∃ t, callDecode bits args s = .next t ∧ t.callResult = some (.decode true)
      ∧ ∀ x y, x < args.width → y < args.height →
        ∃ u, exec (decodeBlock (blocks (x / 4) (y / 4))) s = .next u ∧
          ∀ c, c < 4 → Memory.read t.mem (args.dst + (y * args.width + x) * 4 + c) =
            some ((u.tex[(Fin.ofNat 16 (4 * (y % 4) + x % 4))]).extractLsb' (8 * c) 8)

/-- R159: what `block_mode` returns for a span size that fits SIZE_BITS: the failure value for a block outside the source span or with byte 0 equal to 0, and
otherwise the lowest set bit of byte 0; no byte of host memory and no TEX register changes. -/
def Obligations.BlockModeReturnsTheMode : Prop :=
  ∀ (bits : Nat) (args : BlockModeArgs) (s : State) (word : Word), args.srcSize < 2 ^ bits →
    let a := args.src + 16 * (args.blockX + args.blockWidth * args.blockY)
    (args.src + args.srcSize < a + 16 →
        ∃ t, callBlockMode bits args s = .next t ∧ onlyResult s t (.blockMode Config.blockModeFail))
      ∧ (a + 16 ≤ args.src + args.srcSize →
        (∀ j, j < 4 → Memory.read s.mem (a + j) = some (word.extractLsb' (8 * j) 8)) →
        ∃ t, callBlockMode bits args s = .next t ∧ t.tex = s.tex ∧ sameMemory s t ∧ t.blk0 = ⟨word, true⟩
          ∧ t.blk1 = s.blk1 ∧ t.blk2 = s.blk2 ∧ t.blk3 = s.blk3
          ∧ (word.extractLsb' 0 8 = 0 → t.callResult = some (.blockMode Config.blockModeFail) ∧ t.status = 0x00000006)
          ∧ (∀ m : Mode, word.getLsbD m.val = true → (∀ j, j < m.val → word.getLsbD j = false) →
            t.callResult = some (.blockMode (m.val : Int)) ∧ t.status = BitVec.ofNat 32 (0x80 + 16 * m.val)))
      ∧ (Config.blockModeFail < 0 ∨ 7 < Config.blockModeFail)

/-- A step runs the access that is next, on the state past it: a register write, a register read with its
value or its refusal, and each of the three host calls at the open width SIZE_BITS (46_host_interface.md R143, R146). That a
call is one step, and the queue, are the model's (log entries 7 and 12). -/
def Obligations.StepRunsTheAccess : Prop :=
  ∀ (s : State) (rest : List HostAccess),
    (∀ bits off v, s.pending = .regWrite bits off v :: rest → step s = regWrite bits off v { s with pending := rest })
      ∧ (∀ bits off, s.pending = .regRead bits off :: rest →
        (∀ v, regRead bits off s = .next v → ∃ t, step s = .next t ∧ t.readData = some v ∧ t.pending = rest)
          ∧ ∀ e, regRead bits off s = .refused e → step s = .refused e)
      ∧ (∀ f w h, s.pending = .outputSize f w h :: rest →
        step s = callOutputSize Config.sizeBits f w h { s with pending := rest })
      ∧ (∀ args, s.pending = .decodeImage args :: rest → step s = callDecode Config.sizeBits args { s with pending := rest })
      ∧ (∀ args, s.pending = .blockMode args :: rest → step s = callBlockMode Config.sizeBits args { s with pending := rest })
end

