-- ==== Sys2Proof/Laws/State.lean ====
section
/-! SUPPORT. One lemma per field per update of the state, each true by unfolding its update once, so that no later proof unfolds a record
update. -/

namespace Sys2Proof.Machine

@[simp] theorem setStatus_blk0 (s : State) (w : Word) : (setStatus s w).blk0 = s.blk0 := rfl
@[simp] theorem setStatus_blk1 (s : State) (w : Word) : (setStatus s w).blk1 = s.blk1 := rfl
@[simp] theorem setStatus_blk2 (s : State) (w : Word) : (setStatus s w).blk2 = s.blk2 := rfl
@[simp] theorem setStatus_blk3 (s : State) (w : Word) : (setStatus s w).blk3 = s.blk3 := rfl
@[simp] theorem setStatus_status (s : State) (w : Word) : (setStatus s w).status = w := rfl
@[simp] theorem setStatus_tex (s : State) (w : Word) : (setStatus s w).tex = s.tex := rfl
@[simp] theorem setStatus_mem (s : State) (w : Word) : (setStatus s w).mem = s.mem := rfl
@[simp] theorem setStatus_pending (s : State) (w : Word) : (setStatus s w).pending = s.pending := rfl
@[simp] theorem setStatus_readData (s : State) (w : Word) : (setStatus s w).readData = s.readData := rfl
@[simp] theorem setStatus_callResult (s : State) (w : Word) : (setStatus s w).callResult = s.callResult := rfl
@[simp] theorem setStatus_freeUsed (s : State) (w : Word) : (setStatus s w).freeUsed = s.freeUsed := rfl

@[simp] theorem setTex_blk0 (s : State) (t : TexFile) : (setTex s t).blk0 = s.blk0 := rfl
@[simp] theorem setTex_blk1 (s : State) (t : TexFile) : (setTex s t).blk1 = s.blk1 := rfl
@[simp] theorem setTex_blk2 (s : State) (t : TexFile) : (setTex s t).blk2 = s.blk2 := rfl
@[simp] theorem setTex_blk3 (s : State) (t : TexFile) : (setTex s t).blk3 = s.blk3 := rfl
@[simp] theorem setTex_status (s : State) (t : TexFile) : (setTex s t).status = s.status := rfl
@[simp] theorem setTex_tex (s : State) (t : TexFile) : (setTex s t).tex = t := rfl
@[simp] theorem setTex_mem (s : State) (t : TexFile) : (setTex s t).mem = s.mem := rfl
@[simp] theorem setTex_pending (s : State) (t : TexFile) : (setTex s t).pending = s.pending := rfl
@[simp] theorem setTex_readData (s : State) (t : TexFile) : (setTex s t).readData = s.readData := rfl
@[simp] theorem setTex_callResult (s : State) (t : TexFile) : (setTex s t).callResult = s.callResult := rfl
@[simp] theorem setTex_freeUsed (s : State) (t : TexFile) : (setTex s t).freeUsed = s.freeUsed := rfl

@[simp] theorem beginCommand_blk0 (s : State) : (beginCommand s).blk0 = s.blk0 := rfl
@[simp] theorem beginCommand_blk1 (s : State) : (beginCommand s).blk1 = s.blk1 := rfl
@[simp] theorem beginCommand_blk2 (s : State) : (beginCommand s).blk2 = s.blk2 := rfl
@[simp] theorem beginCommand_blk3 (s : State) : (beginCommand s).blk3 = s.blk3 := rfl
@[simp] theorem beginCommand_status (s : State) : (beginCommand s).status = 0 := rfl
@[simp] theorem beginCommand_tex (s : State) : (beginCommand s).tex = s.tex := rfl
@[simp] theorem beginCommand_mem (s : State) : (beginCommand s).mem = s.mem := rfl
@[simp] theorem beginCommand_pending (s : State) : (beginCommand s).pending = s.pending := rfl
@[simp] theorem beginCommand_readData (s : State) : (beginCommand s).readData = s.readData := rfl
@[simp] theorem beginCommand_callResult (s : State) : (beginCommand s).callResult = s.callResult := rfl
@[simp] theorem beginCommand_freeUsed (s : State) : (beginCommand s).freeUsed = s.freeUsed := rfl

@[simp] theorem takeFault_blk0 (f : CoreFault) (s : State) : (takeFault f s).blk0 = s.blk0 := rfl
@[simp] theorem takeFault_blk1 (f : CoreFault) (s : State) : (takeFault f s).blk1 = s.blk1 := rfl
@[simp] theorem takeFault_blk2 (f : CoreFault) (s : State) : (takeFault f s).blk2 = s.blk2 := rfl
@[simp] theorem takeFault_blk3 (f : CoreFault) (s : State) : (takeFault f s).blk3 = s.blk3 := rfl
@[simp] theorem takeFault_status (f : CoreFault) (s : State) : (takeFault f s).status = faultStatus f := rfl
@[simp] theorem takeFault_tex (f : CoreFault) (s : State) : (takeFault f s).tex = s.tex := rfl
@[simp] theorem takeFault_mem (f : CoreFault) (s : State) : (takeFault f s).mem = s.mem := rfl
@[simp] theorem takeFault_pending (f : CoreFault) (s : State) : (takeFault f s).pending = s.pending := rfl
@[simp] theorem takeFault_readData (f : CoreFault) (s : State) : (takeFault f s).readData = s.readData := rfl
@[simp] theorem takeFault_callResult (f : CoreFault) (s : State) : (takeFault f s).callResult = s.callResult := rfl
@[simp] theorem takeFault_freeUsed (f : CoreFault) (s : State) : (takeFault f s).freeUsed = s.freeUsed := rfl

@[simp] theorem finishDecode_blk0 (m : Mode) (f : Nat → Lanes) (s : State) : (finishDecode m f s).blk0 = s.blk0 := by simp only [finishDecode, setStatus_blk0, setTex_blk0]
@[simp] theorem finishDecode_blk1 (m : Mode) (f : Nat → Lanes) (s : State) : (finishDecode m f s).blk1 = s.blk1 := by simp only [finishDecode, setStatus_blk1, setTex_blk1]
@[simp] theorem finishDecode_blk2 (m : Mode) (f : Nat → Lanes) (s : State) : (finishDecode m f s).blk2 = s.blk2 := by simp only [finishDecode, setStatus_blk2, setTex_blk2]
@[simp] theorem finishDecode_blk3 (m : Mode) (f : Nat → Lanes) (s : State) : (finishDecode m f s).blk3 = s.blk3 := by simp only [finishDecode, setStatus_blk3, setTex_blk3]
@[simp] theorem finishDecode_status (m : Mode) (f : Nat → Lanes) (s : State) : (finishDecode m f s).status = decodedStatus m := rfl
@[simp] theorem finishDecode_tex (m : Mode) (f : Nat → Lanes) (s : State) : (finishDecode m f s).tex = texFile f := by simp only [finishDecode, setStatus_tex, setTex_tex]
@[simp] theorem finishDecode_mem (m : Mode) (f : Nat → Lanes) (s : State) : (finishDecode m f s).mem = s.mem := by simp only [finishDecode, setStatus_mem, setTex_mem]
@[simp] theorem finishDecode_pending (m : Mode) (f : Nat → Lanes) (s : State) : (finishDecode m f s).pending = s.pending := by simp only [finishDecode, setStatus_pending, setTex_pending]
@[simp] theorem finishDecode_readData (m : Mode) (f : Nat → Lanes) (s : State) : (finishDecode m f s).readData = s.readData := by simp only [finishDecode, setStatus_readData, setTex_readData]
@[simp] theorem finishDecode_callResult (m : Mode) (f : Nat → Lanes) (s : State) : (finishDecode m f s).callResult = s.callResult := by simp only [finishDecode, setStatus_callResult, setTex_callResult]
@[simp] theorem finishDecode_freeUsed (m : Mode) (f : Nat → Lanes) (s : State) : (finishDecode m f s).freeUsed = s.freeUsed := by simp only [finishDecode, setStatus_freeUsed, setTex_freeUsed]

@[simp] theorem resetCore_blk0 (s : State) : (resetCore s).blk0 = BlkReg.empty := rfl
@[simp] theorem resetCore_blk1 (s : State) : (resetCore s).blk1 = BlkReg.empty := rfl
@[simp] theorem resetCore_blk2 (s : State) : (resetCore s).blk2 = BlkReg.empty := rfl
@[simp] theorem resetCore_blk3 (s : State) : (resetCore s).blk3 = BlkReg.empty := rfl
@[simp] theorem resetCore_status (s : State) : (resetCore s).status = 0 := rfl
@[simp] theorem resetCore_tex (s : State) : (resetCore s).tex = Vector.replicate 16 0 := rfl
@[simp] theorem resetCore_mem (s : State) : (resetCore s).mem = s.mem := rfl
@[simp] theorem resetCore_pending (s : State) : (resetCore s).pending = s.pending := rfl
@[simp] theorem resetCore_readData (s : State) : (resetCore s).readData = s.readData := rfl
@[simp] theorem resetCore_callResult (s : State) : (resetCore s).callResult = s.callResult := rfl
@[simp] theorem resetCore_freeUsed (s : State) : (resetCore s).freeUsed = s.freeUsed := rfl

@[simp] theorem returnCall_blk0 (r : CallResult) (s : State) : (returnCall r s).blk0 = s.blk0 := rfl
@[simp] theorem returnCall_blk1 (r : CallResult) (s : State) : (returnCall r s).blk1 = s.blk1 := rfl
@[simp] theorem returnCall_blk2 (r : CallResult) (s : State) : (returnCall r s).blk2 = s.blk2 := rfl
@[simp] theorem returnCall_blk3 (r : CallResult) (s : State) : (returnCall r s).blk3 = s.blk3 := rfl
@[simp] theorem returnCall_status (r : CallResult) (s : State) : (returnCall r s).status = s.status := rfl
@[simp] theorem returnCall_tex (r : CallResult) (s : State) : (returnCall r s).tex = s.tex := rfl
@[simp] theorem returnCall_mem (r : CallResult) (s : State) : (returnCall r s).mem = s.mem := rfl
@[simp] theorem returnCall_pending (r : CallResult) (s : State) : (returnCall r s).pending = s.pending := rfl
@[simp] theorem returnCall_readData (r : CallResult) (s : State) : (returnCall r s).readData = s.readData := rfl
@[simp] theorem returnCall_callResult (r : CallResult) (s : State) : (returnCall r s).callResult = some r := rfl
@[simp] theorem returnCall_freeUsed (r : CallResult) (s : State) : (returnCall r s).freeUsed = s.freeUsed := rfl

@[simp] theorem setBlk_0_blk0 (s : State) (v : Word) : (setBlk s 0 v).blk0 = ⟨v, true⟩ := rfl
@[simp] theorem setBlk_0_blk1 (s : State) (v : Word) : (setBlk s 0 v).blk1 = s.blk1 := rfl
@[simp] theorem setBlk_0_blk2 (s : State) (v : Word) : (setBlk s 0 v).blk2 = s.blk2 := rfl
@[simp] theorem setBlk_0_blk3 (s : State) (v : Word) : (setBlk s 0 v).blk3 = s.blk3 := rfl
@[simp] theorem setBlk_0_status (s : State) (v : Word) : (setBlk s 0 v).status = s.status := rfl
@[simp] theorem setBlk_0_tex (s : State) (v : Word) : (setBlk s 0 v).tex = s.tex := rfl
@[simp] theorem setBlk_0_mem (s : State) (v : Word) : (setBlk s 0 v).mem = s.mem := rfl
@[simp] theorem setBlk_0_pending (s : State) (v : Word) : (setBlk s 0 v).pending = s.pending := rfl
@[simp] theorem setBlk_0_readData (s : State) (v : Word) : (setBlk s 0 v).readData = s.readData := rfl
@[simp] theorem setBlk_0_callResult (s : State) (v : Word) : (setBlk s 0 v).callResult = s.callResult := rfl
@[simp] theorem setBlk_0_freeUsed (s : State) (v : Word) : (setBlk s 0 v).freeUsed = s.freeUsed := rfl

@[simp] theorem setBlk_1_blk0 (s : State) (v : Word) : (setBlk s 1 v).blk0 = s.blk0 := rfl
@[simp] theorem setBlk_1_blk1 (s : State) (v : Word) : (setBlk s 1 v).blk1 = ⟨v, true⟩ := rfl
@[simp] theorem setBlk_1_blk2 (s : State) (v : Word) : (setBlk s 1 v).blk2 = s.blk2 := rfl
@[simp] theorem setBlk_1_blk3 (s : State) (v : Word) : (setBlk s 1 v).blk3 = s.blk3 := rfl
@[simp] theorem setBlk_1_status (s : State) (v : Word) : (setBlk s 1 v).status = s.status := rfl
@[simp] theorem setBlk_1_tex (s : State) (v : Word) : (setBlk s 1 v).tex = s.tex := rfl
@[simp] theorem setBlk_1_mem (s : State) (v : Word) : (setBlk s 1 v).mem = s.mem := rfl
@[simp] theorem setBlk_1_pending (s : State) (v : Word) : (setBlk s 1 v).pending = s.pending := rfl
@[simp] theorem setBlk_1_readData (s : State) (v : Word) : (setBlk s 1 v).readData = s.readData := rfl
@[simp] theorem setBlk_1_callResult (s : State) (v : Word) : (setBlk s 1 v).callResult = s.callResult := rfl
@[simp] theorem setBlk_1_freeUsed (s : State) (v : Word) : (setBlk s 1 v).freeUsed = s.freeUsed := rfl

@[simp] theorem setBlk_2_blk0 (s : State) (v : Word) : (setBlk s 2 v).blk0 = s.blk0 := rfl
@[simp] theorem setBlk_2_blk1 (s : State) (v : Word) : (setBlk s 2 v).blk1 = s.blk1 := rfl
@[simp] theorem setBlk_2_blk2 (s : State) (v : Word) : (setBlk s 2 v).blk2 = ⟨v, true⟩ := rfl
@[simp] theorem setBlk_2_blk3 (s : State) (v : Word) : (setBlk s 2 v).blk3 = s.blk3 := rfl
@[simp] theorem setBlk_2_status (s : State) (v : Word) : (setBlk s 2 v).status = s.status := rfl
@[simp] theorem setBlk_2_tex (s : State) (v : Word) : (setBlk s 2 v).tex = s.tex := rfl
@[simp] theorem setBlk_2_mem (s : State) (v : Word) : (setBlk s 2 v).mem = s.mem := rfl
@[simp] theorem setBlk_2_pending (s : State) (v : Word) : (setBlk s 2 v).pending = s.pending := rfl
@[simp] theorem setBlk_2_readData (s : State) (v : Word) : (setBlk s 2 v).readData = s.readData := rfl
@[simp] theorem setBlk_2_callResult (s : State) (v : Word) : (setBlk s 2 v).callResult = s.callResult := rfl
@[simp] theorem setBlk_2_freeUsed (s : State) (v : Word) : (setBlk s 2 v).freeUsed = s.freeUsed := rfl

@[simp] theorem setBlk_3_blk0 (s : State) (v : Word) : (setBlk s 3 v).blk0 = s.blk0 := rfl
@[simp] theorem setBlk_3_blk1 (s : State) (v : Word) : (setBlk s 3 v).blk1 = s.blk1 := rfl
@[simp] theorem setBlk_3_blk2 (s : State) (v : Word) : (setBlk s 3 v).blk2 = s.blk2 := rfl
@[simp] theorem setBlk_3_blk3 (s : State) (v : Word) : (setBlk s 3 v).blk3 = ⟨v, true⟩ := rfl
@[simp] theorem setBlk_3_status (s : State) (v : Word) : (setBlk s 3 v).status = s.status := rfl
@[simp] theorem setBlk_3_tex (s : State) (v : Word) : (setBlk s 3 v).tex = s.tex := rfl
@[simp] theorem setBlk_3_mem (s : State) (v : Word) : (setBlk s 3 v).mem = s.mem := rfl
@[simp] theorem setBlk_3_pending (s : State) (v : Word) : (setBlk s 3 v).pending = s.pending := rfl
@[simp] theorem setBlk_3_readData (s : State) (v : Word) : (setBlk s 3 v).readData = s.readData := rfl
@[simp] theorem setBlk_3_callResult (s : State) (v : Word) : (setBlk s 3 v).callResult = s.callResult := rfl
@[simp] theorem setBlk_3_freeUsed (s : State) (v : Word) : (setBlk s 3 v).freeUsed = s.freeUsed := rfl

@[simp] theorem setBlk_status (s : State) (k : Fin 4) (v : Word) : (setBlk s k v).status = s.status := by
  match k with | 0 | 1 | 2 | 3 => rfl
@[simp] theorem setBlk_tex (s : State) (k : Fin 4) (v : Word) : (setBlk s k v).tex = s.tex := by
  match k with | 0 | 1 | 2 | 3 => rfl
@[simp] theorem setBlk_mem (s : State) (k : Fin 4) (v : Word) : (setBlk s k v).mem = s.mem := by
  match k with | 0 | 1 | 2 | 3 => rfl
@[simp] theorem setBlk_pending (s : State) (k : Fin 4) (v : Word) : (setBlk s k v).pending = s.pending := by
  match k with | 0 | 1 | 2 | 3 => rfl
@[simp] theorem setBlk_readData (s : State) (k : Fin 4) (v : Word) : (setBlk s k v).readData = s.readData := by
  match k with | 0 | 1 | 2 | 3 => rfl
@[simp] theorem setBlk_callResult (s : State) (k : Fin 4) (v : Word) : (setBlk s k v).callResult = s.callResult := by
  match k with | 0 | 1 | 2 | 3 => rfl
@[simp] theorem setBlk_freeUsed (s : State) (k : Fin 4) (v : Word) : (setBlk s k v).freeUsed = s.freeUsed := by
  match k with | 0 | 1 | 2 | 3 => rfl

/-- A BLK register read back right after its write. -/
@[simp] theorem getBlk_setBlk_same (s : State) (k : Fin 4) (v : Word) : getBlk (setBlk s k v) k = ⟨v, true⟩ := by
  match k with | 0 | 1 | 2 | 3 => rfl

/-- The other BLK registers keep their contents. -/
theorem getBlk_setBlk_other (s : State) (k j : Fin 4) (v : Word) (h : j ≠ k) :
    getBlk (setBlk s k v) j = getBlk s j := by
  match k, j with
  | 0, 1 | 0, 2 | 0, 3 | 1, 0 | 1, 2 | 1, 3 | 2, 0 | 2, 1 | 2, 3 | 3, 0 | 3, 1 | 3, 2 => rfl
  | 0, 0 | 1, 1 | 2, 2 | 3, 3 => exact absurd rfl h

/-- `blkHeld` says that every word holds a value. -/
theorem blkHeld_eq_true (s : State) : blkHeld s = true ↔ ∀ k : Fin 4, (getBlk s k).held = true := by
  simp [blkHeld, Fin.forall_fin_succ, getBlk, and_assoc]

@[simp] theorem spendFree_blk0 (b : Bool) (s : State) : (spendFree b s).blk0 = s.blk0 := rfl
@[simp] theorem spendFree_blk1 (b : Bool) (s : State) : (spendFree b s).blk1 = s.blk1 := rfl
@[simp] theorem spendFree_blk2 (b : Bool) (s : State) : (spendFree b s).blk2 = s.blk2 := rfl
@[simp] theorem spendFree_blk3 (b : Bool) (s : State) : (spendFree b s).blk3 = s.blk3 := rfl
@[simp] theorem spendFree_status (b : Bool) (s : State) : (spendFree b s).status = s.status := rfl
@[simp] theorem spendFree_tex (b : Bool) (s : State) : (spendFree b s).tex = s.tex := rfl
@[simp] theorem spendFree_mem (b : Bool) (s : State) : (spendFree b s).mem = s.mem := rfl
@[simp] theorem spendFree_pending (b : Bool) (s : State) : (spendFree b s).pending = s.pending := rfl
@[simp] theorem spendFree_readData (b : Bool) (s : State) : (spendFree b s).readData = s.readData := rfl
@[simp] theorem spendFree_callResult (b : Bool) (s : State) : (spendFree b s).callResult = s.callResult := rfl
@[simp] theorem spendFree_freeUsed (b : Bool) (s : State) :
    (spendFree b s).freeUsed = if b then s.freeUsed + 1 else s.freeUsed := rfl
@[simp] theorem spendFree_false (s : State) : spendFree false s = s := rfl

/-- A word that holds a value is met as that value. -/
theorem operandWord_held (s : State) (k : Fin 4) (h : (getBlk s k).held = true) :
    operandWord s k = (getBlk s k).value := by simp [operandWord, h]

/-- A word that holds no value is met as a free value. -/
theorem operandWord_unheld (s : State) (k : Fin 4) (h : (getBlk s k).held = false) :
    operandWord s k = Config.freeBlkWord s.freeUsed k := by simp [operandWord, h]

/-- With every word held the block decoded is `blk`. -/
theorem operandBlock_held (s : State) (h : blkHeld s = true) : operandBlock s = blkValue s := by
  have hk := (blkHeld_eq_true s).mp h
  simp only [operandBlock, operandWord_held s _ (hk _)]
  rfl

end Sys2Proof.Machine
end

