-- ==== Sys2Proof/Laws/Ops.lean ====
section
/-! SUPPORT. One lemma per shared operation, saying once what it can do: sequencing, host memory one byte at a time, and
the outcomes of the meanings. -/

namespace Sys2Proof.Machine

/-! ### Sequencing -/

@[simp] theorem andThen_next {σ τ : Type} (x : σ) (k : σ → Host.Outcome τ Fault Refusal) :
    andThen (.next x) k = k x := rfl

@[simp] theorem andThen_fault {σ τ : Type} (r : Fault) (k : σ → Host.Outcome τ Fault Refusal) :
    andThen (.fault r) k = .fault r := rfl

@[simp] theorem andThen_refused {σ τ : Type} (r : Refusal) (k : σ → Host.Outcome τ Fault Refusal) :
    andThen (.refused r) k = .refused r := rfl

/-- A sequence answers next exactly when both its parts do. -/
theorem andThen_eq_next {σ τ : Type} {o : Host.Outcome σ Fault Refusal} {k : σ → Host.Outcome τ Fault Refusal} {t : τ} :
    andThen o k = .next t ↔ ∃ x, o = .next x ∧ k x = .next t := by
  cases o <;> simp [andThen]

/-! ### Host memory -/

/-- A byte read back right after it was stored. -/
theorem Memory.read_write_same (m : Memory) (a : Nat) (v : Byte) : Memory.read (Memory.write m a v) a = some v := by
  induction m with
  | nil => simp [Memory.write, Memory.read]
  | cons c rest ih =>
    simp only [Memory.write]
    split
    · simp [Memory.read]
    · split
      · simp [Memory.read]
      · simp [Memory.read, *]

/-- A store leaves every other address alone. -/
theorem Memory.read_write_other (m : Memory) (a b : Nat) (v : Byte) (h : b ≠ a) :
    Memory.read (Memory.write m a v) b = Memory.read m b := by
  induction m with
  | nil => simp [Memory.write, Memory.read, Ne.symm h]
  | cons c rest ih =>
    simp only [Memory.write]
    split
    · simp [Memory.read, Ne.symm h]
    · split
      · rename_i h2
        simp [Memory.read, h2, Ne.symm h]
      · simp only [Memory.read]
        split <;> simp_all

/-- Every address a store lists was listed before or is the one stored to. -/
theorem Memory.mem_write (m : Memory) (a : Nat) (v : Byte) (d : Host.Cell) (h : d ∈ Memory.write m a v) :
    d.1 = a ∨ d ∈ m := by
  induction m with
  | nil => simp_all [Memory.write]
  | cons c rest ih =>
    simp only [Memory.write] at h
    split at h
    · simp only [List.mem_cons] at h ⊢
      rcases h with rfl | h | h <;> simp_all
    · split at h
      · simp only [List.mem_cons] at h ⊢
        rcases h with rfl | h <;> simp_all
      · simp only [List.mem_cons] at h ⊢
        rcases h with rfl | h
        · simp
        · rcases ih h with h | h <;> simp [h]

/-- A store keeps the canonical form. -/
theorem Memory.wf_write (m : Memory) (a : Nat) (v : Byte) (h : Memory.wf m = true) :
    Memory.wf (Memory.write m a v) = true := by
  induction m with
  | nil => simp [Memory.write, Memory.wf]
  | cons c rest ih =>
    simp only [Memory.wf, Bool.and_eq_true, List.all_eq_true, decide_eq_true_eq] at h
    simp only [Memory.write]
    split
    · rename_i hlt
      simp only [Memory.wf, Bool.and_eq_true, List.all_eq_true, decide_eq_true_eq, List.mem_cons]
      refine ⟨?_, h⟩
      rintro d (rfl | hd)
      · exact hlt
      · exact Nat.lt_trans hlt (h.1 d hd)
    · split
      · rename_i heq
        subst heq
        simp only [Memory.wf, Bool.and_eq_true, List.all_eq_true, decide_eq_true_eq]
        exact h
      · simp only [Memory.wf, Bool.and_eq_true, List.all_eq_true, decide_eq_true_eq]
        refine ⟨?_, ih h.2⟩
        intro d hd
        rcases Memory.mem_write rest a v d hd with hd | hd
        · omega
        · exact h.1 d hd

/-- Stores of any length keep the canonical form. -/
theorem Memory.wf_writeBytes (bytes : List Byte) (m : Memory) (a : Nat) (h : Memory.wf m = true) :
    Memory.wf (Memory.writeBytes m a bytes) = true := by
  induction bytes generalizing m a with
  | nil => exact h
  | cons b bs ih => exact ih _ _ (Memory.wf_write m a b h)

/-- Stores of any length leave every address outside the stored bytes alone. -/
theorem Memory.read_writeBytes_outside (bytes : List Byte) (m : Memory) (a b : Nat)
    (h : b < a ∨ a + bytes.length ≤ b) : Memory.read (Memory.writeBytes m a bytes) b = Memory.read m b := by
  induction bytes generalizing m a with
  | nil => rfl
  | cons x xs ih =>
    simp only [List.length_cons] at h
    rw [Memory.writeBytes, ih _ _ (by omega), Memory.read_write_other _ _ _ _ (by omega)]

/-- Each stored byte reads back. -/
theorem Memory.read_writeBytes_inside (bytes : List Byte) (m : Memory) (a j : Nat) (h : j < bytes.length) :
    Memory.read (Memory.writeBytes m a bytes) (a + j) = some bytes[j] := by
  induction bytes generalizing m a j with
  | nil => simp at h
  | cons x xs ih =>
    cases j with
    | zero =>
      rw [Memory.writeBytes, Memory.read_writeBytes_outside _ _ _ _ (by omega)]
      simpa using Memory.read_write_same m a x
    | succ j =>
      have := ih (Memory.write m a x) (a + 1) j (by simpa using h)
      rw [Memory.writeBytes, show a + (j + 1) = a + 1 + j by omega, this]
      rfl

@[simp] theorem bytesOfNat_length (n v : Nat) : (bytesOfNat n v).length = n := by
  induction n generalizing v with
  | zero => rfl
  | succ n ih => simp [bytesOfNat, ih]

/-- A word store keeps the canonical form. -/
theorem memWriteWord_wf (m : Memory) (a : Nat) (v : Word) (h : Memory.wf m = true) :
    Memory.wf (memWriteWord m a v) = true := Memory.wf_writeBytes _ m a h

/-- A word store touches its four bytes only. -/
theorem memWriteWord_outside (m : Memory) (a b : Nat) (v : Word) (h : b < a ∨ a + 4 ≤ b) :
    Memory.read (memWriteWord m a v) b = Memory.read m b :=
  Memory.read_writeBytes_outside _ m a b (by simpa using h)

/-- The memory after reset has the canonical form. -/
theorem reset_mem_wf : Memory.wf State.reset.mem = true := rfl

/-- A byte read answers the byte listed. -/
theorem readByte_eq_next (m : Memory) (a : Nat) (b : Byte) : readByte m a = .next b ↔ Memory.read m a = some b := by
  unfold readByte
  cases Memory.read m a <;> simp

/-- A one-byte-at-a-time read answers next exactly when every byte is listed, and then with their little-endian value. -/
theorem memRead_eq_next (m : Memory) (n a v : Nat) :
    memRead m a n = .next v ↔
      ∃ bytes : List Byte, bytes.length = n ∧ Memory.span m a n = bytes.map some ∧ v = natOfBytes bytes := by
  induction n generalizing a v with
  | zero =>
    constructor
    · intro h
      exact ⟨[], rfl, rfl, by simpa [memRead, natOfBytes, eq_comm] using h⟩
    · rintro ⟨bytes, hl, -, rfl⟩
      rw [List.length_eq_zero_iff.mp hl]
      rfl
  | succ n ih =>
    have hspan : Memory.span m a (n + 1) = Memory.read m a :: Memory.span m (a + 1) n := by
      simp only [Memory.span, List.range_succ_eq_map, List.map_cons, List.map_map, Nat.add_zero]
      refine congrArg _ (List.map_congr_left fun j _ => ?_)
      simp only [Function.comp, Nat.succ_eq_add_one]
      congr 1
      omega
    simp only [memRead, andThen_eq_next, readByte_eq_next, hspan]
    constructor
    · rintro ⟨b, hb, u, hu, hv⟩
      obtain ⟨bs, hl, hs, rfl⟩ := (ih _ _).mp hu
      refine ⟨b :: bs, by simp [hl], by simp [hb, hs], ?_⟩
      cases hv
      rfl
    · rintro ⟨bytes, hl, hs, rfl⟩
      cases bytes with
      | nil => simp at hl
      | cons b bs =>
        simp only [List.map_cons, List.cons.injEq] at hs
        exact ⟨b, hs.1, natOfBytes bs, (ih _ _).mpr ⟨bs, by simpa using hl, hs.2, rfl⟩, rfl⟩

/-! ### The commands -/

/-- What a DECODE does: one of the three endings of 45_block_decoder.md R123, for any mode table. -/
theorem runDecode_cases (table : Mode → ModeDescriptor) (s : State) :
    (lowestSetBit (byte0 (operandBlock s)) = none ∧ runDecode table s = takeFault .reservedMode (beginCommand s)) ∨
    (∃ m, lowestSetBit (byte0 (operandBlock s)) = some m ∧
      ((∃ r, extract (operandBlock s) (table m) m = .bitBudget r ∧
          runDecode table s = takeFault (.bitBudget m) (setStatus (beginCommand s) (modeKnownStatus m))) ∨
        (∃ raw r, extract (operandBlock s) (table m) m = .value raw r ∧
          runDecode table s = finishDecode m
            (texel (table m) raw (expandAll (table m) raw) (partitionMap (table m).subsets raw.part))
            (setStatus (beginCommand s) (modeKnownStatus m))))) := by
  cases hl : lowestSetBit (byte0 (operandBlock s)) with
  | none => exact .inl ⟨rfl, by simp only [runDecode, hl]⟩
  | some m =>
    refine .inr ⟨m, rfl, ?_⟩
    cases h : extract (operandBlock s) (table m) m with
    | value raw r => exact .inr ⟨raw, r, rfl, by simp only [runDecode, hl, h]⟩
    | bitBudget r => exact .inl ⟨r, rfl, by simp only [runDecode, hl, h]⟩

/-- What a MODEQ does. -/
theorem runModeq_cases (s : State) :
    (lowestSetBit ((operandWord s 0).extractLsb' 0 8) = none ∧ runModeq s = takeFault .reservedMode (beginCommand s)) ∨
    (∃ m, lowestSetBit ((operandWord s 0).extractLsb' 0 8) = some m ∧
      runModeq s = setStatus (beginCommand s) (modeKnownStatus m)) := by
  cases hl : lowestSetBit ((operandWord s 0).extractLsb' 0 8) with
  | none => exact .inl ⟨rfl, by simp only [runModeq, hl]⟩
  | some m => exact .inr ⟨m, rfl, by simp only [runModeq, hl]⟩

/-- With every BLK word held, DECODE is `runDecode` and spends no free value. -/
theorem execDecode_held (s : State) (h : blkHeld s = true) : execDecode s = .next (runDecode modeTable s) := by
  simp [execDecode, h]

/-- With BLK0 held, MODEQ is `runModeq` and spends no free value. -/
theorem execModeq_held (s : State) (h : s.blk0.held = true) : execModeq s = .next (runModeq s) := by
  simp [execModeq, h]

/-- A read of a register whose value the spec defines spends no free value. -/
theorem readIsFree_defined (bits off : Nat) (s : State) (n : RegName) (ha : admitAccess bits off = .ok n)
    (hd : regDefined s n = true) : readIsFree bits off s = false := by simp [readIsFree, ha, hd]

/-- An admitted read answers with the register's value. -/
theorem regRead_admitted (bits off : Nat) (s : State) (n : RegName) (ha : admitAccess bits off = .ok n) :
    regRead bits off s = .next (readReg s n) := by simp [regRead, ha]

end Sys2Proof.Machine
end

