-- ==== Sys2Proof/Laws/Calls.lean ====
section
/-! SUPPORT. The laws of the host calls: what their argument checks say in numbers, and what each call and each access is once
they pass. -/

namespace Sys2Proof.Machine

theorem sizesFit_eq_true (bits w h : Nat) : sizesFit bits w h = true ↔
    w < 2 ^ bits ∧ h < 2 ^ bits ∧ w * h * 6 < 2 ^ bits ∧ sourceBytes w h < 2 ^ bits := by
  simp [sizesFit, and_assoc]

theorem bufferFits_eq_true (bits n : Nat) : bufferFits bits n = true ↔ n < 2 ^ bits := by simp [bufferFits]

theorem argsFit_eq_true (bits : Nat) (args : DecodeArgs) : argsFit bits args = true ↔
    sizesFit bits args.width args.height = true ∧ args.srcSize < 2 ^ bits ∧ args.dstSize < 2 ^ bits := by
  simp [argsFit, bufferFits_eq_true, and_assoc]

/-- A `decode` whose arguments are admitted is the dispatch on its format. -/
theorem callDecode_eq_dispatch (bits : Nat) (args : DecodeArgs) (s : State) (hf : argsFit bits args = true)
    (hw : args.width ≠ 0) (hh : args.height ≠ 0)
    (hd : outputSize (formatOf args.format) args.width args.height ≤ args.dstSize) :
    callDecode bits args s = decodeDispatch (formatOf args.format) args s := by
  simp [callDecode, hf, hw, hh, Nat.not_lt.mpr hd]

/-- A `decode` that goes on had its arguments admitted. -/
theorem callDecode_next_dispatch (bits : Nat) (args : DecodeArgs) (s t : State) (h : callDecode bits args s = .next t) :
    argsFit bits args = true ∧ args.width ≠ 0 ∧ args.height ≠ 0
      ∧ outputSize (formatOf args.format) args.width args.height ≤ args.dstSize
      ∧ decodeDispatch (formatOf args.format) args s = .next t := by
  unfold callDecode at h
  simp only at h
  split at h
  · cases h
  · split at h
    · cases h
    · split at h
      · cases h
      · simp_all

/-- A `block_mode` of a block that ends beyond its span fails. -/
theorem callBlockMode_outside (bits : Nat) (args : BlockModeArgs) (s : State) (hf : bufferFits bits args.srcSize = true)
    (ha : blockAddr args.src args.blockWidth (args.blockX, args.blockY) + 16 > args.src + args.srcSize) :
    callBlockMode bits args s = .next (returnCall (.blockMode Config.blockModeFail) s) := by
  simp [callBlockMode, hf, ha]

/-- A step with an access next runs it on the state past it. -/
theorem step_of_pending (s : State) (x : HostAccess) (rest : List HostAccess) (h : s.pending = x :: rest) :
    step s = runAccess x { s with pending := rest } := by simp [step, h]

end Sys2Proof.Machine
end

