-- ==== Sys2Proof/Laws/Contract.lean ====
section
/-! SUPPORT. The laws of the host's contract: what a step inside it is, and which register accesses it holds. -/

namespace Sys2Proof.Machine

/-- Inside the contract the step is the machine's own, and the next access, if any, is a defined one. -/
theorem contractStep_eq_some (s : State) (o : Host.Outcome State Fault Refusal) :
    contractStep s = some o ↔ step s = o ∧ ∀ x rest, s.pending = x :: rest → accessDefined x s = true := by
  cases h : s.pending with
  | nil => simp [contractStep, h]
  | cons x rest => by_cases hd : accessDefined x s = true <;> simp [contractStep, h, hd]

/-- Outside the contract there is no step. -/
theorem contractStep_eq_none (s : State) :
    contractStep s = none ↔ ∃ x rest, s.pending = x :: rest ∧ accessDefined x s = false := by
  cases h : s.pending with
  | nil => simp [contractStep, h]
  | cons x rest => simp [contractStep, h]

/-- A read of a register of the map is inside the contract when the spec defines its value. -/
theorem accessDefined_regRead (n : RegName) (bits off : Nat) (s : State) (ha : admitAccess bits off = .ok n) :
    accessDefined (.regRead bits off) s = regDefined s n := by simp [accessDefined, readIsFree, ha]

/-- A CMD write is inside the contract when its command's words hold values. -/
@[simp] theorem accessDefined_cmd (w : Word) (s : State) :
    accessDefined (.regWrite 32 0x10 w) s = commandDefined w s := rfl

/-- A BLK write always is. -/
@[simp] theorem accessDefined_wrBlk (k : Fin 4) (v : Word) (s : State) : accessDefined (wrBlk k v) s = true := by
  match k with
  | 0 => rfl
  | 1 => rfl
  | 2 => rfl
  | 3 => rfl

/-- Only DECODE and MODEQ can fall outside. -/
theorem commandDefined_ok (w : Word) (i : Instr) (s : State) (h : decodeCommand w = .ok i) :
    commandDefined w s = operandsHeld i s := by simp [commandDefined, h]

end Sys2Proof.Machine
end

