-- ==== Sys2Proof/Laws/PerInstr.lean ====
section
/-! SUPPORT. The family WireBits: the fields of every well-formed instruction fill its encoding exactly (30_encoding.md R55,
41_lookup_tables.md R85), so no gap and no padding is left. One lemma per constructor. -/

namespace Sys2Proof.Laws

/-- The number of bits a list of (width, value) fields takes. -/
def fieldBits (fields : List (Nat × Nat)) : Nat := (fields.map Prod.fst).sum

/-- An index plane omits one bit per subset (30_encoding.md R66), for every partition index a field can hold. -/
theorem indexWidths_sum (ns part w : Nat) (hn : ns = 1 ∨ ns = 2 ∨ ns = 3) (hp : part < 64) (hw : w = 2 ∨ w = 3 ∨ w = 4) :
    (indexWidths ns part w).sum = 16 * w - ns := by
  have all : ∀ ns ∈ [1, 2, 3], ∀ w ∈ [2, 3, 4], ∀ part ∈ List.range 64, (indexWidths ns part w).sum = 16 * w - ns := by
    decide +kernel
  exact all ns (by simpa using hn) w (by simpa using hw) part (by simpa using hp)

theorem fieldBits_append (xs ys : List (Nat × Nat)) : fieldBits (xs ++ ys) = fieldBits xs + fieldBits ys := by
  simp [fieldBits]

theorem fieldBits_cons (f : Nat × Nat) (fs : List (Nat × Nat)) : fieldBits (f :: fs) = f.1 + fieldBits fs := by
  simp [fieldBits]

theorem fieldBits_fieldsOf (w n : Nat) (xs : List Nat) (h : fieldsFit w n xs = true) :
    fieldBits (fieldsOf w xs) = n * w := by
  simp only [fieldsFit, Bool.and_eq_true, beq_iff_eq] at h
  rw [← h.1]
  clear h
  induction xs with
  | nil => simp [fieldsOf, fieldBits]
  | cons x xs ih =>
    rw [fieldsOf, List.map_cons, fieldBits_cons, ← fieldsOf, ih]
    simp only [List.length_cons, Nat.succ_mul]
    omega

theorem fieldBits_planeFields (ns part w : Nat) (xs : List Nat) (h : planeFits ns part w xs = true)
    (hn : ns = 1 ∨ ns = 2 ∨ ns = 3) (hp : part < 64) (hw : w = 2 ∨ w = 3 ∨ w = 4) :
    fieldBits (planeFields ns part w xs) = 16 * w - ns := by
  simp only [planeFits, Bool.and_eq_true, beq_iff_eq] at h
  rw [fieldBits, planeFields, List.map_fst_zip (by simp [indexWidths, h.1]), indexWidths_sum ns part w hn hp hw]

namespace WireBits

/-- The fields of a well-formed instruction take exactly the bits of its encoding. -/
def Statement (i : Instr) : Prop := i.wellFormed = true → fieldBits (wireFields i) = 8 * encodedLength i

theorem bc7m0 (part : Nat) (r g b p idx : List Nat) : Statement (.bc7m0 part r g b p idx) := by
  intro h
  simp only [Instr.wellFormed, Bool.and_eq_true, decide_eq_true_eq] at h
  obtain ⟨⟨⟨⟨⟨hp, hr⟩, hg⟩, hb⟩, hq⟩, hi⟩ := h
  simp only [wireFields, List.cons_append, fieldBits_cons, fieldBits_append, fieldBits_fieldsOf _ _ _ hr,
    fieldBits_fieldsOf _ _ _ hg, fieldBits_fieldsOf _ _ _ hb, fieldBits_fieldsOf _ _ _ hq,
    fieldBits_planeFields _ _ _ _ hi (by simp) (by omega) (by simp), selector, encodedLength]

theorem bc7m1 (part : Nat) (r g b p idx : List Nat) : Statement (.bc7m1 part r g b p idx) := by
  intro h
  simp only [Instr.wellFormed, Bool.and_eq_true, decide_eq_true_eq] at h
  obtain ⟨⟨⟨⟨⟨hp, hr⟩, hg⟩, hb⟩, hq⟩, hi⟩ := h
  simp only [wireFields, List.cons_append, fieldBits_cons, fieldBits_append, fieldBits_fieldsOf _ _ _ hr,
    fieldBits_fieldsOf _ _ _ hg, fieldBits_fieldsOf _ _ _ hb, fieldBits_fieldsOf _ _ _ hq,
    fieldBits_planeFields _ _ _ _ hi (by simp) hp (by simp), selector, encodedLength]

theorem bc7m2 (part : Nat) (r g b idx : List Nat) : Statement (.bc7m2 part r g b idx) := by
  intro h
  simp only [Instr.wellFormed, Bool.and_eq_true, decide_eq_true_eq] at h
  obtain ⟨⟨⟨⟨hp, hr⟩, hg⟩, hb⟩, hi⟩ := h
  simp only [wireFields, List.cons_append, fieldBits_cons, fieldBits_append, fieldBits_fieldsOf _ _ _ hr,
    fieldBits_fieldsOf _ _ _ hg, fieldBits_fieldsOf _ _ _ hb,
    fieldBits_planeFields _ _ _ _ hi (by simp) hp (by simp), selector, encodedLength]

theorem bc7m3 (part : Nat) (r g b p idx : List Nat) : Statement (.bc7m3 part r g b p idx) := by
  intro h
  simp only [Instr.wellFormed, Bool.and_eq_true, decide_eq_true_eq] at h
  obtain ⟨⟨⟨⟨⟨hp, hr⟩, hg⟩, hb⟩, hq⟩, hi⟩ := h
  simp only [wireFields, List.cons_append, fieldBits_cons, fieldBits_append, fieldBits_fieldsOf _ _ _ hr,
    fieldBits_fieldsOf _ _ _ hg, fieldBits_fieldsOf _ _ _ hb, fieldBits_fieldsOf _ _ _ hq,
    fieldBits_planeFields _ _ _ _ hi (by simp) hp (by simp), selector, encodedLength]

theorem bc7m4 (rot isb : Nat) (r g b a idx idx2 : List Nat) : Statement (.bc7m4 rot isb r g b a idx idx2) := by
  intro h
  simp only [Instr.wellFormed, Bool.and_eq_true, decide_eq_true_eq] at h
  obtain ⟨⟨⟨⟨⟨⟨⟨_, _⟩, hr⟩, hg⟩, hb⟩, ha⟩, hi⟩, hj⟩ := h
  simp only [wireFields, List.cons_append, fieldBits_cons, fieldBits_append, fieldBits_fieldsOf _ _ _ hr,
    fieldBits_fieldsOf _ _ _ hg, fieldBits_fieldsOf _ _ _ hb, fieldBits_fieldsOf _ _ _ ha,
    fieldBits_planeFields _ _ _ _ hi (by simp) (by simp) (by simp),
    fieldBits_planeFields _ _ _ _ hj (by simp) (by simp) (by simp), selector, encodedLength]

theorem bc7m5 (rot : Nat) (r g b a idx idx2 : List Nat) : Statement (.bc7m5 rot r g b a idx idx2) := by
  intro h
  simp only [Instr.wellFormed, Bool.and_eq_true, decide_eq_true_eq] at h
  obtain ⟨⟨⟨⟨⟨⟨_, hr⟩, hg⟩, hb⟩, ha⟩, hi⟩, hj⟩ := h
  simp only [wireFields, List.cons_append, fieldBits_cons, fieldBits_append, fieldBits_fieldsOf _ _ _ hr,
    fieldBits_fieldsOf _ _ _ hg, fieldBits_fieldsOf _ _ _ hb, fieldBits_fieldsOf _ _ _ ha,
    fieldBits_planeFields _ _ _ _ hi (by simp) (by simp) (by simp),
    fieldBits_planeFields _ _ _ _ hj (by simp) (by simp) (by simp), selector, encodedLength]

theorem bc7m6 (r g b a p idx : List Nat) : Statement (.bc7m6 r g b a p idx) := by
  intro h
  simp only [Instr.wellFormed, Bool.and_eq_true] at h
  obtain ⟨⟨⟨⟨⟨hr, hg⟩, hb⟩, ha⟩, hq⟩, hi⟩ := h
  simp only [wireFields, List.cons_append, fieldBits_cons, fieldBits_append, fieldBits_fieldsOf _ _ _ hr,
    fieldBits_fieldsOf _ _ _ hg, fieldBits_fieldsOf _ _ _ hb, fieldBits_fieldsOf _ _ _ ha, fieldBits_fieldsOf _ _ _ hq,
    fieldBits_planeFields _ _ _ _ hi (by simp) (by simp) (by simp), selector, encodedLength]

theorem bc7m7 (part : Nat) (r g b a p idx : List Nat) : Statement (.bc7m7 part r g b a p idx) := by
  intro h
  simp only [Instr.wellFormed, Bool.and_eq_true, decide_eq_true_eq] at h
  obtain ⟨⟨⟨⟨⟨⟨hp, hr⟩, hg⟩, hb⟩, ha⟩, hq⟩, hi⟩ := h
  simp only [wireFields, List.cons_append, fieldBits_cons, fieldBits_append, fieldBits_fieldsOf _ _ _ hr,
    fieldBits_fieldsOf _ _ _ hg, fieldBits_fieldsOf _ _ _ hb, fieldBits_fieldsOf _ _ _ ha, fieldBits_fieldsOf _ _ _ hq,
    fieldBits_planeFields _ _ _ _ hi (by simp) hp (by simp), selector, encodedLength]

theorem bc7Reserved (ignored : BitVec 120) : Statement (.bc7Reserved ignored) := fun _ => rfl

theorem nop : Statement .nop := fun _ => rfl

theorem decode : Statement .decode := fun _ => rfl

theorem modeq : Statement .modeq := fun _ => rfl

theorem cmdReserved : Statement .cmdReserved := fun _ => rfl

end WireBits

end Sys2Proof.Laws
end

