-- ==== Sys2Proof/Laws/Reader.lean ====
section
/-! SUPPORT. What the Bit Reader and the datapath's helpers do, said once. -/

namespace Sys2Proof.Machine

@[simp] theorem bind_value {α β : Type} (v : α) (r : Reader) (k : α → Reader → ReadResult β) :
    (ReadResult.value v r).bind k = k v r := rfl

@[simp] theorem bind_bitBudget {α β : Type} (r : Reader) (k : α → Reader → ReadResult β) :
    (ReadResult.bitBudget r : ReadResult α).bind k = .bitBudget r := rfl

/-- A read inside the budget (40_bit_reader.md R78, R79): the field at the position, and the position moved past it. -/
theorem readBits_ok (blk : Block) (n pos budget : Nat) (h : n ≤ budget) :
    readBits blk n ⟨pos, budget, false⟩ = .value (bitsAt blk pos n) ⟨pos + n, budget - n, false⟩ := by
  unfold readBits
  rw [if_neg (by simpa using h)]
  split
  · subst_vars; simp [bitsAt, Nat.mod_one]
  · rfl

/-- Reads inside the budget take consecutive fields (40_bit_reader.md R81). -/
theorem readMany_ok (blk : Block) (widths : List Nat) (pos budget : Nat) (h : widths.sum ≤ budget) :
    readMany blk widths ⟨pos, budget, false⟩ =
      .value (fieldsAt blk widths pos) ⟨pos + widths.sum, budget - widths.sum, false⟩ := by
  induction widths generalizing pos budget with
  | nil => rfl
  | cons w ws ih =>
    simp only [List.sum_cons] at h
    simp only [readMany, readBits_ok blk w pos budget (by omega), bind_value, fieldsAt, ih (pos + w) (budget - w) (by omega),
      List.sum_cons]
    congr 2 <;> omega

@[simp] theorem fieldsAt_length (blk : Block) (widths : List Nat) (p : Nat) :
    (fieldsAt blk widths p).length = widths.length := by
  induction widths generalizing p with
  | nil => rfl
  | cons w ws ih => simp [fieldsAt, ih]

/-- A field is inside its width (00_scope.md R13). -/
theorem bitsAt_lt (blk : Block) (p n : Nat) : bitsAt blk p n < 2 ^ n := Nat.mod_lt _ (Nat.two_pow_pos n)

@[simp] theorem indexWidths_length (ns part w : Nat) : (indexWidths ns part w).length = 16 := by
  simp [indexWidths]

/-- Beyond the fields read, the fixed-shape record holds 0, as reading past the end does (10_state.md R31). -/
theorem zeroPad_getD (n : Nat) (xs : List Nat) (j : Nat) : (zeroPad n xs).getD j 0 = xs.getD j 0 := by
  unfold zeroPad
  by_cases h : j < xs.length
  · simp [List.getD_eq_getElem?_getD, List.getElem?_append_left h]
  · simp only [List.getD_eq_getElem?_getD, List.getElem?_append_right (Nat.le_of_not_lt h), List.getElem?_replicate,
      List.getElem?_eq_none (Nat.le_of_not_lt h)]
    split <;> rfl

/-- Entry `i` of the TEX file is texel `i` packed. -/
@[simp] theorem texFile_getElem (f : Nat → Lanes) (i : Fin 16) : (texFile f)[i] = packTexel (f i.val) := by
  simp [texFile]

end Sys2Proof.Machine
end

