-- ==== Sys2Proof/Tests/Slice0.lean ====
section
/-! SUPPORT. The model's own tests. Every expected value comes from the spec: the vectors of 95_test_vectors.md, the worked
examples of the rules, or the field tables of 30_encoding.md. Then one ill-formed term for each check of WellFormed.lean, and
a witness for the hypotheses of every statement that has some. -/

namespace Sys2Proof.Tests

open Sys2Proof.Machine Sys2Proof.Stated

set_option Elab.async false

/-! ### Small states -/

/-- The state whose next step is DECODE of these sixteen bytes. -/
def loaded (bytes : List Byte) : State := State.reset.withFetchWord 128 (natOfBytes bytes)

/-- The state whose next step is this command, BLK holding these bytes. -/
def loadedCommand (w : Word) (bytes : List Byte) : State :=
  { loadBlk (BitVec.ofNat 128 (natOfBytes bytes)) State.reset with pending := [wrCmd w] }

/-- STATUS of a next state. -/
def statusOf (o : Host.Outcome State Fault Refusal) : Option Word :=
  match o with
  | .next s => some s.status
  | _ => none

/-- TEX of a next state. -/
def texOf (o : Host.Outcome State Fault Refusal) : List Word :=
  match o with
  | .next s => s.tex.toList
  | _ => []

/-- The refusal of an outcome. -/
def refusalOf {σ : Type} (o : Host.Outcome σ Fault Refusal) : Option Refusal :=
  match o with
  | .refused r => some r
  | _ => none

/-! ### The eight vectors V-M0-rand to V-M7-rand (section 2.6) -/

def v0 : List Byte :=
    [0x5F, 0x9D, 0xC5, 0x71, 0xBF, 0x05, 0x45, 0xE2, 0xF1, 0x71, 0xF4, 0xF7, 0xBD, 0x5D, 0x93, 0x44]

def v1 : List Byte :=
    [0x46, 0x7B, 0x6C, 0x58, 0xAB, 0x85, 0x13, 0x28, 0x34, 0x73, 0x51, 0x75, 0x10, 0x15, 0x5D, 0x50]

def v2 : List Byte :=
    [0x44, 0xBB, 0x1A, 0xCD, 0xED, 0xC8, 0xAA, 0xA6, 0x40, 0xFC, 0x9F, 0xE1, 0xCE, 0xE0, 0x2E, 0x95]

def v3 : List Byte :=
    [0x98, 0x28, 0x4C, 0x1C, 0xC5, 0x6C, 0x79, 0x2E, 0xC6, 0x9B, 0xD8, 0xC0, 0x9F, 0x67, 0xE6, 0x12]

def v4 : List Byte :=
    [0xF0, 0xD1, 0xF8, 0x0A, 0x65, 0x2D, 0x6D, 0x79, 0xE0, 0x0D, 0x47, 0x7A, 0x1F, 0xB5, 0x27, 0x40]

def v5 : List Byte :=
    [0xE0, 0x30, 0x39, 0x24, 0x07, 0xFA, 0xCF, 0xDC, 0xF6, 0xBA, 0x9C, 0x49, 0x3F, 0xF7, 0xC0, 0x5C]

def v6 : List Byte :=
    [0xC0, 0x84, 0xF4, 0x1D, 0xB1, 0xF7, 0x1D, 0xAE, 0x98, 0x99, 0xD0, 0x9C, 0xFA, 0xB4, 0xAD, 0x45]

def v7 : List Byte :=
    [0x80, 0xCD, 0x28, 0x8E, 0x83, 0x31, 0x13, 0x32, 0x0E, 0x28, 0x5B, 0x13, 0x19, 0x6B, 0x42, 0xA2]

theorem test_decode_bc7m0 : decodeBytes v0 =
    .ok (.bc7m0 15 [10, 14, 12, 2, 14, 8] [11, 15, 13, 2, 8, 2] [2, 1, 15, 8, 15, 8] [1, 1, 0, 0, 0, 1]
        [2, 7, 7, 2, 7, 5, 7, 6, 2, 3, 5, 1, 1, 1, 1, 2]) := by
  decide +kernel

theorem test_decode_bc7m1 : decodeBytes v1 =
    .ok (.bc7m1 17 [59, 49, 6, 22] [43, 22, 56, 4] [40, 16, 51, 28] [1, 0]
        [0, 5, 2, 2, 7, 0, 4, 0, 5, 2, 4, 6, 5, 0, 4, 2]) := by
  decide +kernel

theorem test_decode_bc7m2 : decodeBytes v2 =
    .ok (.bc7m2 40 [29, 10, 3, 13, 14, 27] [17, 12, 21, 26, 20, 0] [2, 31, 31, 25, 16, 27]
        [1, 0, 3, 0, 0, 2, 1, 1, 3, 1, 1, 2, 2, 2, 0, 1]) := by
  decide +kernel

theorem test_decode_bc7m3 : decodeBytes v3 =
    .ok (.bc7m3 9 [10, 38, 28, 10] [51, 75, 103, 69] [113, 77, 88, 1] [1, 1, 1, 1]
        [1, 3, 0, 3, 3, 0, 3, 0, 3, 0, 3, 1, 1, 2, 0, 0]) := by
  decide +kernel

theorem test_decode_bc7m4 : decodeBytes v4 =
    .ok (.bc7m4 3 1 [17, 6] [30, 21] [16, 18] [53, 18]
        [1, 1, 3, 2, 0, 3, 3, 0, 0, 0, 3, 3, 2, 1, 0, 2] [3, 0, 1, 5, 7, 6, 7, 0, 5, 6, 6, 3, 2, 0, 0, 2]) := by
  decide +kernel

theorem test_decode_bc7m5 : decodeBytes v5 =
    .ok (.bc7m5 3 [48, 114] [16, 57] [32, 127] [51, 183]
        [1, 2, 3, 1, 1, 3, 1, 1, 2, 3, 0, 3, 0, 1, 2, 2] [1, 3, 3, 0, 3, 1, 3, 3, 0, 0, 0, 3, 0, 3, 1, 1]) := by
  decide +kernel

theorem test_decode_bc7m6 : decodeBytes v6 =
    .ok (.bc7m6 [9, 82] [111, 17] [118, 125] [14, 46] [1, 0]
        [4, 9, 9, 9, 0, 13, 12, 9, 10, 15, 4, 11, 13, 10, 5, 4]) := by
  decide +kernel

theorem test_decode_bc7m7 : decodeBytes v7 =
    .ok (.bc7m7 13 [3, 5, 14, 28] [0, 3, 19, 9] [8, 6, 14, 0] [10, 22, 21, 9] [0, 0, 1, 0]
        [0, 3, 0, 2, 1, 1, 3, 0, 1, 0, 2, 0, 1, 0, 1, 1]) := by
  decide +kernel

theorem test_step_bc7m0 : statusOf (step (loaded v0)) = some 0x00000081 ∧ texOf (step (loaded v0)) =
    [0xFF24D0C0, 0xFF18FFEF, 0xFF842121, 0xFFD7A398, 0xFF8C298C, 0xFF1DECDC, 0xFF18FFEF, 0xFF943A38,
     0xFFD96ACD, 0xFFCA5EC1, 0xFF1DECDC, 0xFF27C6B6, 0xFFE877DA, 0xFFE877DA, 0xFFE877DA, 0xFF24D0C0] := by
  decide +kernel

theorem test_step_bc7m1 : statusOf (step (loaded v1)) = some 0x00000091 ∧ texOf (step (loaded v1)) =
    [0xFFA3AFEF, 0xFF8A4B46, 0xFFB3A62A, 0xFFB3A62A, 0xFF425AC7, 0xFFA3AFEF, 0xFF6B7ED8, 0xFFCDE118,
     0xFF5D72D2, 0xFF8897E4, 0xFF6B7ED8, 0xFF5066CD, 0xFF5D72D2, 0xFFA3AFEF, 0xFF6B7ED8, 0xFF8897E4] := by
  decide +kernel

theorem test_step_bc7m2 : statusOf (step (loaded v2)) = some 0x000000A1 ∧ texOf (step (loaded v2)) =
    [0xFF5E7FBB, 0xFF108CEF, 0xFFCED66B, 0xFFFFAD18, 0xFFFFAD18, 0xFFDEC950, 0xFFA26F96, 0xFFA26F96,
     0xFFDE00DE, 0xFFA26F96, 0xFF5E7FBB, 0xFFB17086, 0xFFB17086, 0xFFB17086, 0xFFFFAD18, 0xFFEFBA33] := by
  decide +kernel

theorem test_step_bc7m3 : statusOf (step (loaded v3)) = some 0x000000B1 ∧ texOf (step (loaded v3)) =
    [0xFFCB7727, 0xFF9B974D, 0xFFB1CF39, 0xFF038B15, 0xFF9B974D, 0xFFB1CF39, 0xFF038B15, 0xFFB1CF39,
     0xFF038B15, 0xFFB1CF39, 0xFF038B15, 0xFF78B92D, 0xFF78B92D, 0xFF3CA121, 0xFFB1CF39, 0xFFB1CF39] := by
  decide +kernel

theorem test_step_bc7m4 : statusOf (step (loaded v4)) = some 0x000000C1 ∧ texOf (step (loaded v4)) =
    [0x8BA8D866, 0x84A8F78C, 0x8649ED7F, 0x9078C24B, 0x94D7AD31, 0x9249B73E, 0x9449AD31, 0x84D7F78C,
     0x90D7C24B, 0x92D7B73E, 0x9249B73E, 0x8B49D866, 0x8978E272, 0x84A8F78C, 0x84D7F78C, 0x8978E272] := by
  decide +kernel

theorem test_step_bc7m5 : statusOf (step (loaded v5)) = some 0x000000D1 ∧ texOf (step (loaded v5)) =
    [0x7F5E3B8C, 0xC0B757B9, 0xFFB772E5, 0x7F333B8C, 0x7FB73B8C, 0xFF5E72E5, 0x7FB73B8C, 0x7FB73B8C,
     0xC03357B9, 0xFF3372E5, 0x40332060, 0xFFB772E5, 0x40332060, 0x7FB73B8C, 0xC05E57B9, 0xC05E57B9] := by
  decide +kernel

theorem test_step_bc7m6 : statusOf (step (loaded v6)) = some 0x000000E1 ∧ texOf (step (loaded v6)) =
    [0x2EF0AD3A, 0x42F56F69, 0x42F56F69, 0x42F56F69, 0x1DEDDF13, 0x53F83D90, 0x4FF74887, 0x42F56F69,
     0x47F66074, 0x5CFA22A4, 0x2EF0AD3A, 0x4BF7547D, 0x53F83D90, 0x47F66074, 0x32F1A143, 0x2EF0AD3A] := by
  decide +kernel

theorem test_step_bc7m7 : statusOf (step (loaded v7)) = some 0x000000F1 ∧ texOf (step (loaded v7)) =
    [0x51410018, 0xB2301828, 0x51410018, 0x92361023, 0x713B081D, 0x713B081D, 0xB2301828, 0x51410018,
     0x8D4F8299, 0xAE759E75, 0x6A2665BF, 0xAE759E75, 0x8D4F8299, 0xAE759E75, 0x8D4F8299, 0x8D4F8299] := by
  decide +kernel

/-! ### The words of the other rows (30_encoding.md R70, R72) -/

theorem test_decode_reserved : decodeTableWord 8 0 = some (.bc7Reserved 0) := by decide +kernel

theorem test_decode_commands :
    decodeTableWord 32 0 = some .nop ∧ decodeTableWord 32 1 = some .decode ∧ decodeTableWord 32 2 = some .modeq
      ∧ decodeTableWord 32 3 = some .cmdReserved ∧ decodeTableWord 32 5 = none := by decide +kernel

theorem test_encode_example : encode (.bc7m6 [9, 9] [26, 26] [43, 43] [60, 60] [0, 0] (List.replicate 16 0)) =
    [0xC0, 0x44, 0x42, 0xA3, 0x59, 0xAD, 0x78, 0x3C, 0, 0, 0, 0, 0, 0, 0, 0] := by decide +kernel

/-! ### Commands (section 2.2) -/

theorem test_step_nop :
    statusOf (step { loadedCommand 0 [0x5F] with status := 0x000000E1 }) = some 0x000000E1 := by decide +kernel

theorem test_step_decode_lowest_bit : statusOf (step (loaded (List.replicate 16 0xFF))) = some 0x00000081
    ∧ texOf (step (loaded (List.replicate 16 0xFF))) = List.replicate 16 0xFFFFFFFF := by decide +kernel

theorem test_step_decode_opaque_black :
    texOf (step (loaded [0x01])) = List.replicate 16 0xFF000000 := by decide +kernel

theorem test_step_modeq : statusOf (step (loadedCommand 2 [0x28])) = some 0x000000B0 := by decide +kernel

theorem test_step_modeq_reserved : statusOf (step (loadedCommand 2 [0x00, 0xFF])) = some 0x00000006 := by decide +kernel

theorem test_step_cmd_reserved : statusOf (step (loadedCommand 3 [0x00])) = some 0x0000000E := by decide +kernel

theorem test_step_reserved_block :
    statusOf (step (loaded (0x00 :: List.replicate 15 0xFF))) = some 0x00000006 := by decide +kernel

theorem test_step_high_bits_refused :
    refusalOf (step (loadedCommand 5 [0x01])) = some (.commandHighBits 5) := by decide +kernel

/-- MODEQ reads BLK0 only (70_reset_and_hazards.md R186), so the other words need hold no value. -/
theorem test_modeq_with_blk0_only :
    statusOf (exec .modeq (setBlk State.reset 0 0x28)) = some 0x000000B0 := by decide +kernel

/-- Mode 6 with index_bits 3 is the wrong table of section 2.2: BitBudget, STATUS 0xEA. -/
theorem test_wrong_table_takes_bit_budget :
    (runDecode (fun m => if m = 6 then { modeTable m with indexBits := 3 } else modeTable m) (loaded v6)).status
      = 0x000000EA := by decide +kernel

/-! ### Rotation and index selection (section 2.7) -/

theorem test_rotation_mode4 :
    (texOf (step (loaded (v4.set 0 0x10)))).take 2 = [0x9B89DF6E, 0xD789DF6E]
      ∧ (texOf (step (loaded (v4.set 0 0xB0)))).take 2 = [0x668BD8A8, 0x8C84F7A8]
      ∧ (texOf (step (loaded (v4.set 0 0x50)))).take 2 = [0xDF899B6E, 0xDF89D76E] := by decide +kernel

theorem test_rotation_mode5 :
    (texOf (step (loaded (v5.set 0 0x60)))).take 2 = [0x8C7F3B5E, 0xB9C057B7]
      ∧ (texOf (step (loaded (v5.set 0 0xA0)))).take 2 = [0x3B7F5E8C, 0x57C0B7B9] := by decide +kernel

/-! ### Bit Reader, lookups, expander, interpolator (sections 2.1, 2.3 to 2.5) -/

theorem test_reader_overrun :
    readBits (BitVec.ofNat 128 (natOfBytes v0)) 8 ⟨120, 8, false⟩ = .value 0x44 ⟨128, 0, false⟩
      ∧ readBits (BitVec.ofNat 128 (natOfBytes v0)) 1 ⟨128, 0, false⟩ = .bitBudget ⟨128, 0, true⟩
      ∧ readBits (BitVec.ofNat 128 (natOfBytes v0)) 0 ⟨128, 0, true⟩ = .bitBudget ⟨128, 0, true⟩ := by decide +kernel

theorem test_field_across_bytes : field (BitVec.ofNat 128 (natOfBytes v0)) 19 13 = 44 := by decide +kernel

/-- The mask column of PARTITION2 (41_lookup_tables.md R87): bit i is the subset of texel i. -/
def partition2Masks : List Nat :=
    [0xCCCC, 0x8888, 0xEEEE, 0xECC8, 0xC880, 0xFEEC, 0xFEC8, 0xEC80,
     0xC800, 0xFFEC, 0xFE80, 0xE800, 0xFFE8, 0xFF00, 0xFFF0, 0xF000]
    ++ [0xF710, 0x008E, 0x7100, 0x08CE, 0x008C, 0x7310, 0x3100, 0x8CCE,
     0x088C, 0x3110, 0x6666, 0x366C, 0x17E8, 0x0FF0, 0x718E, 0x399C]
    ++ [0xAAAA, 0xF0F0, 0x5A5A, 0x33CC, 0x3C3C, 0x55AA, 0x9696, 0xA55A,
     0x73CE, 0x13C8, 0x324C, 0x3BDC, 0x6996, 0xC33C, 0x9966, 0x0660]
    ++ [0x0272, 0x04E4, 0x4E40, 0x2720, 0xC936, 0x936C, 0x39C6, 0x639C,
     0x9336, 0x9CC6, 0x817E, 0xE718, 0xCCF0, 0x0FCC, 0x7744, 0xEE22]

theorem test_partition2_masks :
    (List.range 64).map (fun p => ((List.range 16).map fun i => partition 2 p i * 2 ^ i).sum) = partition2Masks := by
  decide +kernel

theorem test_lookups :
    (List.range 16).map (partition 3 15) = [0, 0, 1, 1, 2, 0, 0, 1, 2, 2, 0, 0, 2, 2, 2, 0]
      ∧ anchor 3 15 1 = 3 ∧ anchor 3 15 2 = 8 ∧ anchor 3 40 1 = 15 ∧ anchor 3 40 2 = 6 ∧ anchor 2 17 1 = 2 := by
  decide +kernel

theorem test_expand_table :
    [expand 10 4 1 1, expand 15 4 1 1, expand 15 4 1 0, expand 0 4 1 1, expand 16 5 0 0, expand 31 5 0 0, expand 59 6 1 1,
      expand 53 6 0 0, expand 18 6 0 0, expand 48 7 0 0, expand 9 7 1 1, expand 183 8 0 0, expand 22 5 1 0]
      = [173, 255, 247, 8, 132, 255, 239, 215, 73, 96, 19, 183, 178] := by decide +kernel

theorem test_interpolate_table :
    (List.range 8).map (fun k => interpolate 0 255 k 3) = [0, 36, 72, 108, 147, 183, 219, 255]
      ∧ (List.range 16).map (fun k => interpolate 0 255 k 4) =
        [0, 16, 36, 52, 68, 84, 104, 120, 135, 151, 171, 187, 203, 219, 239, 255]
      ∧ interpolate 173 239 2 3 = 192 ∧ interpolate 0 16 8 4 = 9 := by decide +kernel

/-! ### The host (sections 1 S2, 2.9, programs P1, P4) -/

theorem test_register_block :
    refusalOf (regRead 32 0x18 State.reset) = some (.reservedOffset 0x18)
      ∧ refusalOf (regRead 16 0x14 State.reset) = some (.accessWidth 16)
      ∧ refusalOf (regRead 32 0x60 State.reset) = some (.beyondRegisterBlock 0x60)
      ∧ refusalOf (regRead 32 0x16 State.reset) = some (.misaligned 0x16) := by decide +kernel

theorem test_host_addresses :
    blockAddr 0 2 (1, 1) = 48 ∧ blockAddr 0 2 (1, 2) = 80 ∧ pixelAddr 0 6 (5, 4) = 116 ∧ pixelOf (1, 2) 0 = (4, 8)
      ∧ outputSize .bc7Unorm 6 6 = 144 ∧ outputSize .bc6hUnsignedFloat 6 6 = 216 ∧ outputSize .unknown 6 6 = 0 := by
  decide +kernel

/-- The block of P1 at address 0. -/
def withSource : State := { State.reset with mem := Memory.writeBytes [] 0 v3 }

/-- A 2 by 1 image of that block, destination at 100. -/
def smallImage : DecodeArgs := ⟨.tag .bc7Unorm, 2, 1, 0, 16, 100, 8⟩

/-- P1's first two pixels are written and the texels clipped away are not. -/
def decodedPixels : Option (List (Option Byte)) :=
  match callDecode 32 smallImage withSource with
  | .next s => some (Memory.span s.mem 99 10)
  | _ => none

theorem test_decode_call : decodedPixels =
    some [none, some 0x27, some 0x77, some 0xCB, some 0xFF, some 0x4D, some 0x97, some 0x9B, some 0xFF, none] := by
  decide +kernel

/-- The result of a call. -/
def resultOf (o : Host.Outcome State Fault Refusal) : Option CallResult :=
  match o with
  | .next s => s.callResult
  | _ => none

theorem test_block_mode_call :
    resultOf (callBlockMode 32 ⟨0, 16, 0, 0, 1⟩ withSource) = some (.blockMode 3) := by decide +kernel

theorem test_decode_call_short_source :
    resultOf (callDecode 32 { smallImage with srcSize := 15 } withSource) = some (.decode false) := by decide +kernel

/-! ### Ill-formed terms, one for each check -/

/-- The sixteen zero index values. -/
def z : List Nat := List.replicate 16 0

theorem test_ill_formed_bc7m0 :
    (Instr.bc7m0 0 [0, 0, 0, 0, 0, 0] [0, 0, 0, 0, 0, 0] [0, 0, 0, 0, 0, 0] [0, 0, 0, 0, 0, 0] z).wellFormed = true
      ∧ (Instr.bc7m0 16 [0, 0, 0, 0, 0, 0] [0, 0, 0, 0, 0, 0] [0, 0, 0, 0, 0, 0] [0, 0, 0, 0, 0, 0] z).wellFormed = false
      ∧ (Instr.bc7m0 0 [0, 0, 0, 0, 0] [0, 0, 0, 0, 0, 0] [0, 0, 0, 0, 0, 0] [0, 0, 0, 0, 0, 0] z).wellFormed = false
      ∧ (Instr.bc7m0 0 [0, 0, 0, 0, 0, 16] [0, 0, 0, 0, 0, 0] [0, 0, 0, 0, 0, 0] [0, 0, 0, 0, 0, 0] z).wellFormed = false
      ∧ (Instr.bc7m0 0 [0, 0, 0, 0, 0, 0] [0, 0, 0, 0, 0] [0, 0, 0, 0, 0, 0] [0, 0, 0, 0, 0, 0] z).wellFormed = false
      ∧ (Instr.bc7m0 0 [0, 0, 0, 0, 0, 0] [0, 0, 0, 0, 0, 16] [0, 0, 0, 0, 0, 0] [0, 0, 0, 0, 0, 0] z).wellFormed = false
      ∧ (Instr.bc7m0 0 [0, 0, 0, 0, 0, 0] [0, 0, 0, 0, 0, 0] [0, 0, 0, 0, 0] [0, 0, 0, 0, 0, 0] z).wellFormed = false
      ∧ (Instr.bc7m0 0 [0, 0, 0, 0, 0, 0] [0, 0, 0, 0, 0, 0] [0, 0, 0, 0, 0, 16] [0, 0, 0, 0, 0, 0] z).wellFormed = false
      ∧ (Instr.bc7m0 0 [0, 0, 0, 0, 0, 0] [0, 0, 0, 0, 0, 0] [0, 0, 0, 0, 0, 0] [0, 0, 0, 0, 0] z).wellFormed = false
      ∧ (Instr.bc7m0 0 [0, 0, 0, 0, 0, 0] [0, 0, 0, 0, 0, 0] [0, 0, 0, 0, 0, 0] [0, 0, 0, 0, 0, 2] z).wellFormed = false
      ∧ (Instr.bc7m0 0 [0, 0, 0, 0, 0, 0] [0, 0, 0, 0, 0, 0] [0, 0, 0, 0, 0, 0] [0, 0, 0, 0, 0, 0] (z.drop 1)).wellFormed = false
      ∧ (Instr.bc7m0 0 [0, 0, 0, 0, 0, 0] [0, 0, 0, 0, 0, 0] [0, 0, 0, 0, 0, 0] [0, 0, 0, 0, 0, 0] (z.set 1 8)).wellFormed = false
      ∧ (Instr.bc7m0 0 [0, 0, 0, 0, 0, 0] [0, 0, 0, 0, 0, 0] [0, 0, 0, 0, 0, 0] [0, 0, 0, 0, 0, 0] (z.set 0 4)).wellFormed = false
      ∧ (Instr.bc7m0 0 [0, 0, 0, 0, 0, 0] [0, 0, 0, 0, 0, 0] [0, 0, 0, 0, 0, 0] [0, 0, 0, 0, 0, 0] (z.set 3 4)).wellFormed = false
      ∧ (Instr.bc7m0 0 [0, 0, 0, 0, 0, 0] [0, 0, 0, 0, 0, 0] [0, 0, 0, 0, 0, 0] [0, 0, 0, 0, 0, 0] (z.set 15 4)).wellFormed = false := by decide +kernel

theorem test_ill_formed_bc7m1 :
    (Instr.bc7m1 0 [0, 0, 0, 0] [0, 0, 0, 0] [0, 0, 0, 0] [0, 0] z).wellFormed = true
      ∧ (Instr.bc7m1 64 [0, 0, 0, 0] [0, 0, 0, 0] [0, 0, 0, 0] [0, 0] z).wellFormed = false
      ∧ (Instr.bc7m1 0 [0, 0, 0] [0, 0, 0, 0] [0, 0, 0, 0] [0, 0] z).wellFormed = false
      ∧ (Instr.bc7m1 0 [0, 0, 0, 64] [0, 0, 0, 0] [0, 0, 0, 0] [0, 0] z).wellFormed = false
      ∧ (Instr.bc7m1 0 [0, 0, 0, 0] [0, 0, 0] [0, 0, 0, 0] [0, 0] z).wellFormed = false
      ∧ (Instr.bc7m1 0 [0, 0, 0, 0] [0, 0, 0, 64] [0, 0, 0, 0] [0, 0] z).wellFormed = false
      ∧ (Instr.bc7m1 0 [0, 0, 0, 0] [0, 0, 0, 0] [0, 0, 0] [0, 0] z).wellFormed = false
      ∧ (Instr.bc7m1 0 [0, 0, 0, 0] [0, 0, 0, 0] [0, 0, 0, 64] [0, 0] z).wellFormed = false
      ∧ (Instr.bc7m1 0 [0, 0, 0, 0] [0, 0, 0, 0] [0, 0, 0, 0] [0] z).wellFormed = false
      ∧ (Instr.bc7m1 0 [0, 0, 0, 0] [0, 0, 0, 0] [0, 0, 0, 0] [0, 2] z).wellFormed = false
      ∧ (Instr.bc7m1 0 [0, 0, 0, 0] [0, 0, 0, 0] [0, 0, 0, 0] [0, 0] (z.drop 1)).wellFormed = false
      ∧ (Instr.bc7m1 0 [0, 0, 0, 0] [0, 0, 0, 0] [0, 0, 0, 0] [0, 0] (z.set 1 8)).wellFormed = false
      ∧ (Instr.bc7m1 0 [0, 0, 0, 0] [0, 0, 0, 0] [0, 0, 0, 0] [0, 0] (z.set 0 4)).wellFormed = false
      ∧ (Instr.bc7m1 0 [0, 0, 0, 0] [0, 0, 0, 0] [0, 0, 0, 0] [0, 0] (z.set 15 4)).wellFormed = false := by decide +kernel

theorem test_ill_formed_bc7m2 :
    (Instr.bc7m2 0 [0, 0, 0, 0, 0, 0] [0, 0, 0, 0, 0, 0] [0, 0, 0, 0, 0, 0] z).wellFormed = true
      ∧ (Instr.bc7m2 64 [0, 0, 0, 0, 0, 0] [0, 0, 0, 0, 0, 0] [0, 0, 0, 0, 0, 0] z).wellFormed = false
      ∧ (Instr.bc7m2 0 [0, 0, 0, 0, 0] [0, 0, 0, 0, 0, 0] [0, 0, 0, 0, 0, 0] z).wellFormed = false
      ∧ (Instr.bc7m2 0 [0, 0, 0, 0, 0, 32] [0, 0, 0, 0, 0, 0] [0, 0, 0, 0, 0, 0] z).wellFormed = false
      ∧ (Instr.bc7m2 0 [0, 0, 0, 0, 0, 0] [0, 0, 0, 0, 0] [0, 0, 0, 0, 0, 0] z).wellFormed = false
      ∧ (Instr.bc7m2 0 [0, 0, 0, 0, 0, 0] [0, 0, 0, 0, 0, 32] [0, 0, 0, 0, 0, 0] z).wellFormed = false
      ∧ (Instr.bc7m2 0 [0, 0, 0, 0, 0, 0] [0, 0, 0, 0, 0, 0] [0, 0, 0, 0, 0] z).wellFormed = false
      ∧ (Instr.bc7m2 0 [0, 0, 0, 0, 0, 0] [0, 0, 0, 0, 0, 0] [0, 0, 0, 0, 0, 32] z).wellFormed = false
      ∧ (Instr.bc7m2 0 [0, 0, 0, 0, 0, 0] [0, 0, 0, 0, 0, 0] [0, 0, 0, 0, 0, 0] (z.drop 1)).wellFormed = false
      ∧ (Instr.bc7m2 0 [0, 0, 0, 0, 0, 0] [0, 0, 0, 0, 0, 0] [0, 0, 0, 0, 0, 0] (z.set 1 4)).wellFormed = false
      ∧ (Instr.bc7m2 0 [0, 0, 0, 0, 0, 0] [0, 0, 0, 0, 0, 0] [0, 0, 0, 0, 0, 0] (z.set 0 2)).wellFormed = false
      ∧ (Instr.bc7m2 0 [0, 0, 0, 0, 0, 0] [0, 0, 0, 0, 0, 0] [0, 0, 0, 0, 0, 0] (z.set 3 2)).wellFormed = false
      ∧ (Instr.bc7m2 0 [0, 0, 0, 0, 0, 0] [0, 0, 0, 0, 0, 0] [0, 0, 0, 0, 0, 0] (z.set 15 2)).wellFormed = false := by decide +kernel

theorem test_ill_formed_bc7m3 :
    (Instr.bc7m3 0 [0, 0, 0, 0] [0, 0, 0, 0] [0, 0, 0, 0] [0, 0, 0, 0] z).wellFormed = true
      ∧ (Instr.bc7m3 64 [0, 0, 0, 0] [0, 0, 0, 0] [0, 0, 0, 0] [0, 0, 0, 0] z).wellFormed = false
      ∧ (Instr.bc7m3 0 [0, 0, 0] [0, 0, 0, 0] [0, 0, 0, 0] [0, 0, 0, 0] z).wellFormed = false
      ∧ (Instr.bc7m3 0 [0, 0, 0, 128] [0, 0, 0, 0] [0, 0, 0, 0] [0, 0, 0, 0] z).wellFormed = false
      ∧ (Instr.bc7m3 0 [0, 0, 0, 0] [0, 0, 0] [0, 0, 0, 0] [0, 0, 0, 0] z).wellFormed = false
      ∧ (Instr.bc7m3 0 [0, 0, 0, 0] [0, 0, 0, 128] [0, 0, 0, 0] [0, 0, 0, 0] z).wellFormed = false
      ∧ (Instr.bc7m3 0 [0, 0, 0, 0] [0, 0, 0, 0] [0, 0, 0] [0, 0, 0, 0] z).wellFormed = false
      ∧ (Instr.bc7m3 0 [0, 0, 0, 0] [0, 0, 0, 0] [0, 0, 0, 128] [0, 0, 0, 0] z).wellFormed = false
      ∧ (Instr.bc7m3 0 [0, 0, 0, 0] [0, 0, 0, 0] [0, 0, 0, 0] [0, 0, 0] z).wellFormed = false
      ∧ (Instr.bc7m3 0 [0, 0, 0, 0] [0, 0, 0, 0] [0, 0, 0, 0] [0, 0, 0, 2] z).wellFormed = false
      ∧ (Instr.bc7m3 0 [0, 0, 0, 0] [0, 0, 0, 0] [0, 0, 0, 0] [0, 0, 0, 0] (z.drop 1)).wellFormed = false
      ∧ (Instr.bc7m3 0 [0, 0, 0, 0] [0, 0, 0, 0] [0, 0, 0, 0] [0, 0, 0, 0] (z.set 1 4)).wellFormed = false
      ∧ (Instr.bc7m3 0 [0, 0, 0, 0] [0, 0, 0, 0] [0, 0, 0, 0] [0, 0, 0, 0] (z.set 0 2)).wellFormed = false
      ∧ (Instr.bc7m3 0 [0, 0, 0, 0] [0, 0, 0, 0] [0, 0, 0, 0] [0, 0, 0, 0] (z.set 15 2)).wellFormed = false := by decide +kernel

theorem test_ill_formed_bc7m4 :
    (Instr.bc7m4 0 0 [0, 0] [0, 0] [0, 0] [0, 0] z z).wellFormed = true
      ∧ (Instr.bc7m4 4 0 [0, 0] [0, 0] [0, 0] [0, 0] z z).wellFormed = false
      ∧ (Instr.bc7m4 0 2 [0, 0] [0, 0] [0, 0] [0, 0] z z).wellFormed = false
      ∧ (Instr.bc7m4 0 0 [0] [0, 0] [0, 0] [0, 0] z z).wellFormed = false
      ∧ (Instr.bc7m4 0 0 [0, 32] [0, 0] [0, 0] [0, 0] z z).wellFormed = false
      ∧ (Instr.bc7m4 0 0 [0, 0] [0] [0, 0] [0, 0] z z).wellFormed = false
      ∧ (Instr.bc7m4 0 0 [0, 0] [0, 32] [0, 0] [0, 0] z z).wellFormed = false
      ∧ (Instr.bc7m4 0 0 [0, 0] [0, 0] [0] [0, 0] z z).wellFormed = false
      ∧ (Instr.bc7m4 0 0 [0, 0] [0, 0] [0, 32] [0, 0] z z).wellFormed = false
      ∧ (Instr.bc7m4 0 0 [0, 0] [0, 0] [0, 0] [0] z z).wellFormed = false
      ∧ (Instr.bc7m4 0 0 [0, 0] [0, 0] [0, 0] [0, 64] z z).wellFormed = false
      ∧ (Instr.bc7m4 0 0 [0, 0] [0, 0] [0, 0] [0, 0] (z.drop 1) z).wellFormed = false
      ∧ (Instr.bc7m4 0 0 [0, 0] [0, 0] [0, 0] [0, 0] (z.set 1 4) z).wellFormed = false
      ∧ (Instr.bc7m4 0 0 [0, 0] [0, 0] [0, 0] [0, 0] (z.set 0 2) z).wellFormed = false
      ∧ (Instr.bc7m4 0 0 [0, 0] [0, 0] [0, 0] [0, 0] z (z.drop 1)).wellFormed = false
      ∧ (Instr.bc7m4 0 0 [0, 0] [0, 0] [0, 0] [0, 0] z (z.set 1 8)).wellFormed = false
      ∧ (Instr.bc7m4 0 0 [0, 0] [0, 0] [0, 0] [0, 0] z (z.set 0 4)).wellFormed = false := by decide +kernel

theorem test_ill_formed_bc7m5 :
    (Instr.bc7m5 0 [0, 0] [0, 0] [0, 0] [0, 0] z z).wellFormed = true
      ∧ (Instr.bc7m5 4 [0, 0] [0, 0] [0, 0] [0, 0] z z).wellFormed = false
      ∧ (Instr.bc7m5 0 [0] [0, 0] [0, 0] [0, 0] z z).wellFormed = false
      ∧ (Instr.bc7m5 0 [0, 128] [0, 0] [0, 0] [0, 0] z z).wellFormed = false
      ∧ (Instr.bc7m5 0 [0, 0] [0] [0, 0] [0, 0] z z).wellFormed = false
      ∧ (Instr.bc7m5 0 [0, 0] [0, 128] [0, 0] [0, 0] z z).wellFormed = false
      ∧ (Instr.bc7m5 0 [0, 0] [0, 0] [0] [0, 0] z z).wellFormed = false
      ∧ (Instr.bc7m5 0 [0, 0] [0, 0] [0, 128] [0, 0] z z).wellFormed = false
      ∧ (Instr.bc7m5 0 [0, 0] [0, 0] [0, 0] [0] z z).wellFormed = false
      ∧ (Instr.bc7m5 0 [0, 0] [0, 0] [0, 0] [0, 256] z z).wellFormed = false
      ∧ (Instr.bc7m5 0 [0, 0] [0, 0] [0, 0] [0, 0] (z.drop 1) z).wellFormed = false
      ∧ (Instr.bc7m5 0 [0, 0] [0, 0] [0, 0] [0, 0] (z.set 1 4) z).wellFormed = false
      ∧ (Instr.bc7m5 0 [0, 0] [0, 0] [0, 0] [0, 0] (z.set 0 2) z).wellFormed = false
      ∧ (Instr.bc7m5 0 [0, 0] [0, 0] [0, 0] [0, 0] z (z.drop 1)).wellFormed = false
      ∧ (Instr.bc7m5 0 [0, 0] [0, 0] [0, 0] [0, 0] z (z.set 1 4)).wellFormed = false
      ∧ (Instr.bc7m5 0 [0, 0] [0, 0] [0, 0] [0, 0] z (z.set 0 2)).wellFormed = false := by decide +kernel

theorem test_ill_formed_bc7m6 :
    (Instr.bc7m6 [0, 0] [0, 0] [0, 0] [0, 0] [0, 0] z).wellFormed = true
      ∧ (Instr.bc7m6 [0] [0, 0] [0, 0] [0, 0] [0, 0] z).wellFormed = false
      ∧ (Instr.bc7m6 [0, 128] [0, 0] [0, 0] [0, 0] [0, 0] z).wellFormed = false
      ∧ (Instr.bc7m6 [0, 0] [0] [0, 0] [0, 0] [0, 0] z).wellFormed = false
      ∧ (Instr.bc7m6 [0, 0] [0, 128] [0, 0] [0, 0] [0, 0] z).wellFormed = false
      ∧ (Instr.bc7m6 [0, 0] [0, 0] [0] [0, 0] [0, 0] z).wellFormed = false
      ∧ (Instr.bc7m6 [0, 0] [0, 0] [0, 128] [0, 0] [0, 0] z).wellFormed = false
      ∧ (Instr.bc7m6 [0, 0] [0, 0] [0, 0] [0] [0, 0] z).wellFormed = false
      ∧ (Instr.bc7m6 [0, 0] [0, 0] [0, 0] [0, 128] [0, 0] z).wellFormed = false
      ∧ (Instr.bc7m6 [0, 0] [0, 0] [0, 0] [0, 0] [0] z).wellFormed = false
      ∧ (Instr.bc7m6 [0, 0] [0, 0] [0, 0] [0, 0] [0, 2] z).wellFormed = false
      ∧ (Instr.bc7m6 [0, 0] [0, 0] [0, 0] [0, 0] [0, 0] (z.drop 1)).wellFormed = false
      ∧ (Instr.bc7m6 [0, 0] [0, 0] [0, 0] [0, 0] [0, 0] (z.set 1 16)).wellFormed = false
      ∧ (Instr.bc7m6 [0, 0] [0, 0] [0, 0] [0, 0] [0, 0] (z.set 0 8)).wellFormed = false := by decide +kernel

theorem test_ill_formed_bc7m7 :
    (Instr.bc7m7 0 [0, 0, 0, 0] [0, 0, 0, 0] [0, 0, 0, 0] [0, 0, 0, 0] [0, 0, 0, 0] z).wellFormed = true
      ∧ (Instr.bc7m7 64 [0, 0, 0, 0] [0, 0, 0, 0] [0, 0, 0, 0] [0, 0, 0, 0] [0, 0, 0, 0] z).wellFormed = false
      ∧ (Instr.bc7m7 0 [0, 0, 0] [0, 0, 0, 0] [0, 0, 0, 0] [0, 0, 0, 0] [0, 0, 0, 0] z).wellFormed = false
      ∧ (Instr.bc7m7 0 [0, 0, 0, 32] [0, 0, 0, 0] [0, 0, 0, 0] [0, 0, 0, 0] [0, 0, 0, 0] z).wellFormed = false
      ∧ (Instr.bc7m7 0 [0, 0, 0, 0] [0, 0, 0] [0, 0, 0, 0] [0, 0, 0, 0] [0, 0, 0, 0] z).wellFormed = false
      ∧ (Instr.bc7m7 0 [0, 0, 0, 0] [0, 0, 0, 32] [0, 0, 0, 0] [0, 0, 0, 0] [0, 0, 0, 0] z).wellFormed = false
      ∧ (Instr.bc7m7 0 [0, 0, 0, 0] [0, 0, 0, 0] [0, 0, 0] [0, 0, 0, 0] [0, 0, 0, 0] z).wellFormed = false
      ∧ (Instr.bc7m7 0 [0, 0, 0, 0] [0, 0, 0, 0] [0, 0, 0, 32] [0, 0, 0, 0] [0, 0, 0, 0] z).wellFormed = false
      ∧ (Instr.bc7m7 0 [0, 0, 0, 0] [0, 0, 0, 0] [0, 0, 0, 0] [0, 0, 0] [0, 0, 0, 0] z).wellFormed = false
      ∧ (Instr.bc7m7 0 [0, 0, 0, 0] [0, 0, 0, 0] [0, 0, 0, 0] [0, 0, 0, 32] [0, 0, 0, 0] z).wellFormed = false
      ∧ (Instr.bc7m7 0 [0, 0, 0, 0] [0, 0, 0, 0] [0, 0, 0, 0] [0, 0, 0, 0] [0, 0, 0] z).wellFormed = false
      ∧ (Instr.bc7m7 0 [0, 0, 0, 0] [0, 0, 0, 0] [0, 0, 0, 0] [0, 0, 0, 0] [0, 0, 0, 2] z).wellFormed = false
      ∧ (Instr.bc7m7 0 [0, 0, 0, 0] [0, 0, 0, 0] [0, 0, 0, 0] [0, 0, 0, 0] [0, 0, 0, 0] (z.drop 1)).wellFormed = false
      ∧ (Instr.bc7m7 0 [0, 0, 0, 0] [0, 0, 0, 0] [0, 0, 0, 0] [0, 0, 0, 0] [0, 0, 0, 0] (z.set 1 4)).wellFormed = false
      ∧ (Instr.bc7m7 0 [0, 0, 0, 0] [0, 0, 0, 0] [0, 0, 0, 0] [0, 0, 0, 0] [0, 0, 0, 0] (z.set 0 2)).wellFormed = false
      ∧ (Instr.bc7m7 0 [0, 0, 0, 0] [0, 0, 0, 0] [0, 0, 0, 0] [0, 0, 0, 0] [0, 0, 0, 0] (z.set 15 2)).wellFormed = false := by decide +kernel

/-! ### Witnesses: states and operands that meet the hypotheses of the statements, each clause at a boundary -/

/-- A block held in BLK, nothing pending. -/
def heldBlock (bytes : List Byte) : State := loadBlk (BitVec.ofNat 128 (natOfBytes bytes)) State.reset

/-- The same block, STATUS and TEX as some earlier DECODE left them. -/
def usedCore (bytes : List Byte) : State :=
  { heldBlock bytes with status := 0x000000E1, tex := Vector.replicate 16 0x12345678 }

/-- Only BLK`k` holds no value. -/
def lacking (k : Fin 4) : State :=
  match k with
  | 0 => { heldBlock v0 with blk0 := BlkReg.empty }
  | 1 => { heldBlock v0 with blk1 := BlkReg.empty }
  | 2 => { heldBlock v0 with blk2 := BlkReg.empty }
  | 3 => { heldBlock v0 with blk3 := BlkReg.empty }

/-- This access is the host's next one. -/
def before (x : HostAccess) (s : State) : State := { s with pending := [x] }

/-- The outcome is a next state. -/
def goesOn {σ : Type} (o : Host.Outcome σ Fault Refusal) : Bool :=
  match o with
  | .next _ => true
  | _ => false

theorem goesOn_next {σ : Type} {o : Host.Outcome σ Fault Refusal} (h : goesOn o = true) : ∃ t, o = .next t := by
  cases o with
  | next t => exact ⟨t, rfl⟩
  | fault r => cases h
  | refused r => cases h

/-- Every row of the opcode table runs as the first instruction after reset. -/
theorem test_every_row_runs_after_reset :
    ∀ p ∈ [(8, 1), (8, 2), (8, 4), (8, 8), (8, 0x10), (8, 0x20), (8, 0x40), (8, 0x80), (8, 0), (32, 0), (32, 1), (32, 2), (32, 3)],
      (decodeTableWord p.1 p.2).isSome = true ∧ goesOn (step (State.reset.withFetchWord p.1 p.2)) = true := by
  decide +kernel

/-- The reserved block with every ignored bit set. -/
def reservedBytes : List Byte := 0x00 :: List.replicate 15 0xFF

theorem witness_CommandWordIsOpInLowBits :
    (0 : Word).extractLsb' 2 30 = 0 ∧ (3 : Word).extractLsb' 2 30 = 0 ∧ (0 : Word).extractLsb' 0 2 = 0
      ∧ (1 : Word).extractLsb' 0 2 = 1 ∧ (2 : Word).extractLsb' 0 2 = 2 ∧ (3 : Word).extractLsb' 0 2 = 3
      ∧ (4 : Word).extractLsb' 2 30 ≠ 0 ∧ (0x80000000 : Word).extractLsb' 2 30 ≠ 0 := by decide +kernel

/-- Every operand of modes 0 to 3 at its greatest value. -/
theorem witness_wellFormed_opaque :
    (Instr.bc7m0 15 (List.replicate 6 15) (List.replicate 6 15) (List.replicate 6 15) (List.replicate 6 1)
      [3, 7, 7, 3, 7, 7, 7, 7, 3, 7, 7, 7, 7, 7, 7, 7]).wellFormed = true
    ∧ (Instr.bc7m1 63 (List.replicate 4 63) (List.replicate 4 63) (List.replicate 4 63) [1, 1]
      [3, 7, 7, 7, 7, 7, 7, 7, 7, 7, 7, 7, 7, 7, 7, 3]).wellFormed = true
    ∧ (Instr.bc7m2 63 (List.replicate 6 31) (List.replicate 6 31) (List.replicate 6 31)
      [1, 3, 3, 1, 3, 3, 3, 3, 1, 3, 3, 3, 3, 3, 3, 3]).wellFormed = true
    ∧ (Instr.bc7m3 63 (List.replicate 4 127) (List.replicate 4 127) (List.replicate 4 127) (List.replicate 4 1)
      [1, 3, 3, 3, 3, 3, 3, 3, 3, 3, 3, 3, 3, 3, 3, 1]).wellFormed = true := by decide +kernel

/-- Every operand of modes 4 to 7 at its greatest value, every rotation and both index selections. -/
theorem witness_wellFormed_alpha :
    (∀ rot, rot < 4 → ∀ isb, isb < 2 →
      (Instr.bc7m4 rot isb [31, 31] [31, 31] [31, 31] [63, 63] (1 :: List.replicate 15 3)
        (3 :: List.replicate 15 7)).wellFormed = true)
    ∧ (∀ rot, rot < 4 → (Instr.bc7m5 rot [127, 127] [127, 127] [127, 127] [255, 255] (1 :: List.replicate 15 3)
        (1 :: List.replicate 15 3)).wellFormed = true)
    ∧ (Instr.bc7m6 [127, 127] [127, 127] [127, 127] [127, 127] [1, 1] (7 :: List.replicate 15 15)).wellFormed = true
    ∧ (Instr.bc7m7 63 (List.replicate 4 31) (List.replicate 4 31) (List.replicate 4 31) (List.replicate 4 31)
      (List.replicate 4 1) [1, 3, 3, 3, 3, 3, 3, 3, 3, 3, 3, 3, 3, 3, 3, 1]).wellFormed = true
    ∧ (Instr.bc7Reserved (BitVec.allOnes 120)).wellFormed = true ∧ Instr.nop.wellFormed = true
    ∧ Instr.decode.wellFormed = true ∧ Instr.modeq.wellFormed = true ∧ Instr.cmdReserved.wellFormed = true := by
  decide +kernel

/-- The premises of `decodesTo`: BLK holds the block that encodes the instruction. -/
theorem witness_decodesTo :
    ∀ bytes ∈ [v0, v1, v2, v3, v4, v5, v6, v7], blkHeld (heldBlock bytes) = true
      ∧ blkValue (heldBlock bytes) = encodeBlock (decodeBlock (blkValue (heldBlock bytes))) := by decide +kernel

/-- The least and the greatest mode match a block, and a block whose byte 0 is 0 matches none. -/
theorem witness_SelectorMatchesLowestSetBit :
    matchesMode 0x01 0 = true ∧ matchesMode 0x80 7 = true ∧ matchesMode 0x180 7 = true ∧ matchesMode 0x181 7 = false
      ∧ lowestSetBit (byte0 0x100) = none := by decide +kernel

theorem witness_ReservedExactlyWhenByteZero :
    (BitVec.ofNat 128 (natOfBytes reservedBytes)).extractLsb' 0 8 = 0
      ∧ (1 : Block).extractLsb' 0 8 ≠ 0 ∧ (0x80 : Block).extractLsb' 0 8 ≠ 0 := by decide +kernel

theorem witness_AnchorsLieInTheirSubsets : (0 : Nat) < 64 ∧ (63 : Nat) < 64 ∧ (15 : Nat) < 16 := by decide

theorem witness_WeightsAreRoundedLinear : (3 : Nat) < 2 ^ 2 ∧ (7 : Nat) < 2 ^ 3 ∧ (15 : Nat) < 2 ^ 4 := by decide

theorem witness_ReadBitsReadsOrRaises :
    ((⟨5, 123, true⟩ : Reader).err = true ∨ 123 < 0) ∧ ((⟨121, 7, false⟩ : Reader).err = true ∨ 7 < 8)
      ∧ ((⟨128, 0, false⟩ : Reader).err = false ∧ 0 ≤ 0) ∧ ((⟨120, 8, false⟩ : Reader).err = false ∧ 8 ≤ 8) := by decide

theorem witness_ReadsTakeConsecutiveRanges :
    readMany (BitVec.ofNat 128 (natOfBytes v0)) [4, 0, 8, 115] ⟨1, 127, false⟩ =
      .value [15, 0, 234, 11127035237613899809009109766475308] ⟨128, 0, false⟩ := by decide +kernel

theorem witness_FailedReadIsSticky :
    readBits (BitVec.ofNat 128 (natOfBytes v0)) 2 ⟨127, 1, false⟩ = .bitBudget ⟨127, 1, true⟩ := by decide +kernel

/-- Every mode's extraction ends in a value. -/
theorem witness_ExtractorReadsTheTableRanges : ∀ bytes ∈ [v0, v1, v2, v3, v4, v5, v6, v7], ∀ m : Mode,
    (match extract (BitVec.ofNat 128 (natOfBytes bytes)) (modeTable m) m with
      | .value _ r => decide (r = ⟨128, 0, false⟩)
      | .bitBudget _ => false) = true := by decide +kernel

theorem witness_ExpandRepeatsTheTopBits :
    (1 ≤ 1 + 0 ∧ 1 + 0 < 8 ∧ 1 < 2 ^ 1) ∧ (4 ≤ 4 + 0 ∧ 15 < 2 ^ 4) ∧ (6 + 1 < 8 ∧ 63 < 2 ^ 6)
      ∧ (7 + 1 = 8 ∧ 127 < 2 ^ 7) ∧ (8 + 0 = 8 ∧ 255 < 2 ^ 8) := by decide

theorem witness_ExpandCornersAreExact : (255 < 256) ∧ (127 < 128 ∧ 1 ≤ 1) ∧ (4 ≤ 4 ∧ 4 ≤ 8) ∧ (8 ≤ 8) ∧ (3 ≤ 3 ∧ 3 ≤ 7)
    ∧ (7 ≤ 7) := by decide

theorem witness_interpolate : ((2 = 2 ∨ 2 = 3 ∨ 2 = 4) ∧ 3 < 2 ^ 2) ∧ ((4 = 2 ∨ 4 = 3 ∨ 4 = 4) ∧ 15 < 2 ^ 4) := by decide

theorem witness_ReservedBlockTakesReservedMode :
    blkHeld (heldBlock reservedBytes) = true ∧ (blkValue (heldBlock reservedBytes)).extractLsb' 0 8 = 0
      ∧ (heldBlock reservedBytes).blk0.held = true ∧ (heldBlock reservedBytes).blk0.value.extractLsb' 0 8 = 0 := by
  decide +kernel

/-- MODEQ needs BLK0 only: the least mode, the greatest mode, and byte 0 equal to 0. -/
theorem witness_ModeqReportsTheMode :
    (setBlk State.reset 0 1).blk0.held = true ∧ (setBlk State.reset 0 1).blk0.value.getLsbD 0 = true
      ∧ (setBlk State.reset 0 0x80).blk0.value.getLsbD 7 = true
      ∧ (∀ j, j < 7 → (setBlk State.reset 0 0x80).blk0.value.getLsbD j = false)
      ∧ (setBlk State.reset 0 0xFFFFFF00).blk0.value.extractLsb' 0 8 = 0 := by decide +kernel

theorem witness_CommandsRunWithoutBlock :
    (∀ k, (getBlk (heldBlock v0) k).held = true) ∧ (∀ k, (getBlk (lacking k) k).held = false)
      ∧ (lacking 0).blk0.held = false ∧ (lacking 3).blk0.held = true
      ∧ (operandWord (lacking 3) 0).getLsbD 0 = true ∧ (operandWord (setBlk State.reset 0 0x80) 0).getLsbD 7 = true
      ∧ (∀ j, j < 7 → (operandWord (setBlk State.reset 0 0x80) 0).getLsbD j = false)
      ∧ (operandWord (setBlk State.reset 0 0xFFFFFF00) 0).extractLsb' 0 8 = 0
      ∧ (before (wrCmd 2) (lacking 0)).pending = .regWrite 32 0x10 2 :: [] := by decide +kernel

/-- R186 and R27: a host inside the contract has no DECODE without BLK3, no MODEQ without BLK0 and no read of TEX while VALID is 0,
but a MODEQ with BLK0 alone. -/
theorem test_contract_refuses :
    (contractStep (before (wrCmd 1) (lacking 3))).isSome = false ∧ (contractStep (before (wrCmd 2) (lacking 0))).isSome = false
      ∧ (contractStep (before (rdTex 0) (heldBlock v0))).isSome = false
      ∧ (contractStep (before (wrCmd 2) (lacking 3))).isSome = true
      ∧ (contractStep (before (wrCmd 1) (heldBlock v0))).isSome = true := by decide +kernel

theorem witness_EveryNonReservedBlockDecodes :
    blkHeld (heldBlock v7) = true ∧ (blkValue (heldBlock v7)).extractLsb' 0 8 = 0x80
      ∧ blkHeld (heldBlock reservedBytes) = true ∧ (blkValue (heldBlock reservedBytes)).extractLsb' 0 8 = 0 := by
  decide +kernel

theorem witness_DecodeRunsTheBlockInstruction :
    blkHeld (heldBlock v4) = true ∧ blkHeld (heldBlock reservedBytes) = true := by decide +kernel

/-- The wrong table of section 2.2: the reads succeed and 16 bits remain, so the reader of the end check has no error. -/
theorem witness_FailedExtractionTakesBitBudget :
    lowestSetBit (byte0 (operandBlock (heldBlock v6))) = some 6
      ∧ extract (operandBlock (heldBlock v6)) { modeTable 6 with indexBits := 3 } 6 = .bitBudget ⟨112, 16, false⟩ := by
  decide +kernel

theorem witness_SolidDecodesToItsColour :
    solid 255 1 3 129 = some (.bc7m6 [127, 127] [0, 0] [1, 1] [64, 64] [1, 1] (List.replicate 16 0))
      ∧ solid 0 0 0 1 = none := by decide +kernel

/-- Mode 4 and mode 5 blocks with rotation 0, and the same blocks with rotation 1. -/
theorem witness_RotationOneSwapsRedAndAlpha :
    (matchesMode (blkValue (heldBlock (v4.set 0 0x90))) 4 = true
      ∧ (blkValue (heldBlock (v4.set 0 0x90))).extractLsb' 5 2 = 0
      ∧ blkValue (heldBlock (v4.set 0 0xB0)) = blkValue (heldBlock (v4.set 0 0x90)) ||| (1 : Block) <<< 5)
    ∧ (matchesMode (blkValue (heldBlock (v5.set 0 0x20))) 5 = true
      ∧ (blkValue (heldBlock (v5.set 0 0x20))).extractLsb' 6 2 = 0
      ∧ blkValue (heldBlock (v5.set 0 0x60)) = blkValue (heldBlock (v5.set 0 0x20)) ||| (1 : Block) <<< 6)
    ∧ goesOn (exec .decode (heldBlock (v4.set 0 0x90))) = true ∧ goesOn (exec .decode (heldBlock (v4.set 0 0xB0))) = true
    ∧ goesOn (exec .decode (heldBlock (v5.set 0 0x20))) = true
    ∧ goesOn (exec .decode (heldBlock (v5.set 0 0x60))) = true := by decide +kernel

/-- Every instruction goes on from a state with a block, the modes with the operands of their vectors. -/
theorem witness_InstructionFrame :
    (∀ i ∈ [Instr.bc7Reserved 1, .nop, .decode, .modeq, .cmdReserved], goesOn (exec i (heldBlock v0)) = true)
      ∧ (∀ bytes ∈ [v0, v1, v2, v3, v4, v5, v6, v7],
        goesOn (exec (decodeBlock (blkValue (heldBlock bytes))) (heldBlock v0)) = true)
      ∧ texOf (exec .decode (heldBlock v0)) ≠ (heldBlock v0).tex.toList := by decide +kernel

theorem witness_DecodeDependsOnBlkOnly :
    operandBlock (heldBlock v4) = operandBlock (usedCore v4) ∧ blkHeld (heldBlock v4) = true ∧ goesOn (exec .decode (heldBlock v4)) = true
      ∧ goesOn (exec .decode (usedCore v4)) = true
      ∧ (statusOf (exec .decode (heldBlock v4))).map statusValid = some true
      ∧ operandWord (heldBlock v4) 0 = operandWord (usedCore v4) 0 ∧ goesOn (exec .modeq (heldBlock v4)) = true
      ∧ goesOn (exec .modeq (usedCore v4)) = true := by decide +kernel

theorem witness_FaultEntryWritesStatusOnly :
    CoreFault.bitBudget 7 = .bitBudget 7 ∧ (∀ m, CoreFault.reservedMode ≠ .bitBudget m)
      ∧ (∀ m, CoreFault.illegalCommand ≠ .bitBudget m) := by decide +kernel

/-- The reserved offsets, a width that is not 32, a misaligned offset and the end of the block are no register's. -/
theorem witness_AdmittedAccessesAreTheRegisterMap :
    (∀ x ∈ [(32, 0x18), (32, 0x1C), (32, 0x60), (32, 0x12), (8, 0x14), (64, 0x20)], ∀ k : Fin 4, ∀ i : Fin 16,
      ¬(x.1 = 32 ∧ (x.2 = (RegName.blk k).offset ∨ x.2 = RegName.cmd.offset ∨ x.2 = RegName.status.offset
        ∨ x.2 = (RegName.tex i).offset)))
      ∧ admitAccess 32 0x0C = .ok (.blk 3) ∧ admitAccess 32 0x5C = .ok (.tex 15)
      ∧ (RegName.status ≠ .cmd ∧ ∀ k, RegName.status ≠ .blk k) ∧ (RegName.tex 0 ≠ .cmd ∧ ∀ k, RegName.tex 0 ≠ .blk k) := by
  decide +kernel

theorem witness_RegisterReadsReturn :
    (getBlk (heldBlock v0) 3).held = true ∧ (getBlk State.reset 0).held = false
      ∧ (usedCore v0).status.getLsbD 0 = true ∧ State.reset.status.getLsbD 0 = false := by decide +kernel

theorem witness_BlkWriteReadsBack :
    goesOn (exec .modeq (setBlk State.reset 0 0xFF)) = true ∧ goesOn (exec .nop (setBlk State.reset 3 7)) = true
      ∧ (0 : Fin 4) ≠ 3 := by decide +kernel

theorem witness_CmdWriteStartsItsCommand :
    (4 : Word).extractLsb' 2 30 ≠ 0 ∧ (0xFFFFFFFF : Word).extractLsb' 2 30 ≠ 0 := by decide +kernel

theorem witness_StepRunsTheDecodedInstruction :
    (before (wrCmd 3) State.reset).pending = .regWrite 32 0x10 3 :: [] ∧ decodeCommand 3 = .ok .cmdReserved := by
  decide +kernel

theorem witness_StepRunsTheLoadedBlock :
    (loaded v6).pending = .regWrite 32 0x10 1 :: [] ∧ blkHeld (loaded v6) = true := by decide +kernel

theorem witness_IdleStepHoldsTheState : State.reset.pending = [] := rfl

theorem witness_ResetLeavesNoValue :
    (before .platformReset (usedCore v0)).pending = .platformReset :: [] := rfl

/-- The invariant holds with a block decoded, and a step goes on from there. -/
theorem witness_EveryStepKeepsTheInvariant :
    (before (wrCmd 1) (usedCore v6)).Inv ∧ ∃ t, step (before (wrCmd 1) (usedCore v6)) = .next t :=
  ⟨by unfold State.Inv; decide +kernel, goesOn_next (by decide +kernel)⟩

/-- The same inside the host's contract, from a state with VALID and MODE_VALID set. -/
theorem witness_EveryStepKeepsTheInvariant_contract :
    (before (wrCmd 2) (usedCore v6)).ContractInv ∧ statusValid (usedCore v6).status = true
      ∧ ∃ t, contractStep (before (wrCmd 2) (usedCore v6)) = some (.next t) := by
  refine ⟨by unfold State.ContractInv State.Inv; decide +kernel, by decide +kernel, ?_⟩
  obtain ⟨t, h⟩ := goesOn_next (o := step (before (wrCmd 2) (usedCore v6))) (by decide +kernel)
  exact ⟨t, congrArg some h⟩

theorem witness_ReadsHaveNoSideEffect :
    (before (rdTex 15) (usedCore v0)).pending = .regRead 32 0x5C :: []
      ∧ regDefined (usedCore v0) (.tex 15) = true ∧ regDefined State.reset (.tex 15) = false
      ∧ regDefined (heldBlock v0) (.blk 3) = true ∧ regDefined State.reset (.blk 0) = false := by decide +kernel

/-- A read of a register without a value goes on (log entry 16). -/
theorem test_read_without_value_goes_on :
    goesOn (step (before (rdTex 0) State.reset)) = true ∧ goesOn (step (before (rdBlk 3) State.reset)) = true := by
  decide +kernel

/-- The memory read: the byte present, and one byte past it absent. -/
theorem witness_ReadsHaveNoSideEffect_memory :
    (before (.memRead 15) withSource).pending = .memRead 15 :: [] ∧ Memory.read withSource.mem 15 = some 0x12
      ∧ Memory.read withSource.mem 16 = none := by decide +kernel

theorem witness_StoreAccessWritesItsBytes :
    (before (.memWrite 4 [1, 2]) State.reset).pending = .memWrite 4 [1, 2] :: [] ∧ 1 < [(1 : Byte), 2].length
      ∧ (3 < 4 ∨ 4 + [(1 : Byte), 2].length ≤ 3) ∧ (6 < 4 ∨ 4 + [(1 : Byte), 2].length ≤ 6) := by decide +kernel

/-- The greatest product that fits 16 bits, and one more row that does not. -/
theorem witness_OutputSizeReturnsTheProduct :
    sizesFit 16 10922 1 = true ∧ sizesFit 16 10923 1 = false ∧ sizesFit 16 0 0 = true
      ∧ formatOf (.tag .bc7Unorm) = .bc7Unorm ∧ formatOf (.tag .bc6hSignedFloat) = .bc6hSignedFloat
      ∧ formatOf (.tag .bc6hUnsignedFloat) = .bc6hUnsignedFloat ∧ formatOf (.tag .unknown) = .unknown := by decide +kernel

theorem witness_DecodeCallRefusals :
    sizesFit 16 10923 1 = false ∧ (sizesFit 16 0 4 = true ∧ (0 = 0 ∨ 4 = 0)) ∧ (sizesFit 16 4 0 = true ∧ (4 = 0 ∨ 0 = 0))
      ∧ sizesFit 16 65536 0 = false ∧ argsFit 16 { smallImage with srcSize := 65536 } = false
      ∧ argsFit 16 { smallImage with dstSize := 65536 } = false
      ∧ argsFit 16 { smallImage with width := 65535, height := 0, srcSize := 65535, dstSize := 65535 } = true
      ∧ 2 ^ 4 ≤ (BlockModeArgs.mk 0 16 0 0 1).srcSize ∧ argsFit 16 { smallImage with dstSize := 7 } = true ∧ 7 < outputSize (formatOf smallImage.format) 2 1 := by
  decide +kernel

/-- The unknown tag with an empty destination, with eight bytes, and with eight bytes that overlap the source span. -/
theorem witness_FailingFormatsTouchNothing :
    admitted 32 { smallImage with format := .tag .bc6hSignedFloat, dstSize := 12 } .bc6hSignedFloat
      ∧ admitted 32 { smallImage with format := .tag .bc6hUnsignedFloat, dstSize := 12 } .bc6hUnsignedFloat
      ∧ admitted 32 { smallImage with format := .tag .unknown, dstSize := 0 } .unknown
      ∧ admitted 32 { smallImage with format := .tag .unknown, dstSize := 8 } .unknown
      ∧ (99 < smallImage.dst ∨ smallImage.dst + 8 ≤ 99) ∧ (108 < smallImage.dst ∨ smallImage.dst + 8 ≤ 108)
      ∧ admitted 32 { smallImage with format := .tag .unknown, dst := 12, dstSize := 8 } .unknown
      ∧ admitted 32 { smallImage with srcSize := 15 } .bc7Unorm ∧ 15 < 16 * ((2 + 3) / 4) * ((1 + 3) / 4) := by
  unfold admitted; decide +kernel

/-- A 5 by 1 image: two blocks, the second clipped. -/
def wideImage : DecodeArgs := ⟨.tag .bc7Unorm, 5, 1, 0, 32, 32, 20⟩

/-- Its two source blocks. -/
def wideSource (first second : List Byte) : State := { State.reset with mem := Memory.writeBytes [] 0 (first ++ second) }

theorem witness_ReservedBlockFailsTheWholeImage :
    admitted 32 wideImage .bc7Unorm
      ∧ (∀ x, x < (5 + 3) / 4 → ∀ y, y < (1 + 3) / 4 →
        (Memory.read (wideSource v3 reservedBytes).mem (imageBlock wideImage x y)).isSome = true)
      ∧ Memory.read (wideSource v3 reservedBytes).mem (imageBlock wideImage 1 0) = some 0 := by
  unfold admitted; decide +kernel

theorem witness_DecodeWritesInsideTheImageOnly :
    formatOf wideImage.format = .bc7Unorm ∧ goesOn (callDecode 32 wideImage (wideSource v3 v6)) = true
      ∧ (31 < wideImage.dst ∨ wideImage.dst + 5 * 1 * 4 ≤ 31) ∧ (52 < wideImage.dst ∨ wideImage.dst + 5 * 1 * 4 ≤ 52)
      ∧ (wideImage.src ≤ 0 ∧ 31 < wideImage.src + 16 * ((5 + 3) / 4) * ((1 + 3) / 4)) := by
  decide +kernel

/-- A destination that overlaps the source is refused as soon as a source byte changes. -/
theorem test_decode_call_over_its_source :
    refusalOf (callDecode 32 { wideImage with dst := 28 } (wideSource v3 v6)) = some .sourceSpanChanged := by decide +kernel

/-- The blocks of the 5 by 1 image. -/
def wideBlocks (x _y : Nat) : Block := BitVec.ofNat 128 (natOfBytes (if x = 0 then v3 else v6))

theorem witness_DecodeWritesTheWholeImage :
    admitted 32 wideImage .bc7Unorm ∧ 16 * ((5 + 3) / 4) * ((1 + 3) / 4) ≤ wideImage.srcSize
      ∧ (∀ x, x < (5 + 3) / 4 → ∀ y, y < (1 + 3) / 4 → ∀ j, j < 16 →
        Memory.read (wideSource v3 v6).mem (imageBlock wideImage x y + j) =
          some ((wideBlocks x y).extractLsb' (8 * j) 8))
      ∧ (∀ x, x < (5 + 3) / 4 → ∀ y, y < (1 + 3) / 4 → (wideBlocks x y).extractLsb' 0 8 ≠ 0)
      ∧ wideImage.src + 16 * ((5 + 3) / 4) * ((1 + 3) / 4) ≤ wideImage.dst := by
  unfold admitted; decide +kernel

/-- The same image with the destination first and the source right behind it. -/
def wideImageAfter : DecodeArgs := { wideImage with src := 20, dst := 0 }

theorem witness_DecodeWritesTheWholeImage_after :
    admitted 32 wideImageAfter .bc7Unorm ∧ 16 * ((5 + 3) / 4) * ((1 + 3) / 4) ≤ wideImageAfter.srcSize
      ∧ (∀ x, x < (5 + 3) / 4 → ∀ y, y < (1 + 3) / 4 → ∀ j, j < 16 →
        Memory.read (Memory.writeBytes [] 20 (v3 ++ v6)) (imageBlock wideImageAfter x y + j) =
          some ((wideBlocks x y).extractLsb' (8 * j) 8))
      ∧ (∀ x, x < (5 + 3) / 4 → ∀ y, y < (1 + 3) / 4 → (wideBlocks x y).extractLsb' 0 8 ≠ 0)
      ∧ wideImageAfter.dst + wideImageAfter.width * wideImageAfter.height * 4 ≤ wideImageAfter.src := by
  unfold admitted; decide +kernel

/-- The span ends one byte short of the block, and exactly at its end; byte 0 of the block a mode 3 and a reserved one. -/
theorem witness_BlockModeReturnsTheMode :
    16 < 2 ^ 5 ∧ (0 + 15 < 0 + 16 * (0 + 1 * 0) + 16) ∧ (0 + 16 * (0 + 1 * 0) + 16 ≤ 0 + 16)
      ∧ (∀ j, j < 4 → Memory.read withSource.mem (0 + j) = some ((0x1C4C2898 : Word).extractLsb' (8 * j) 8))
      ∧ (0x1C4C2898 : Word).getLsbD 3 = true ∧ (∀ j, j < 3 → (0x1C4C2898 : Word).getLsbD j = false)
      ∧ (0xFFFFFF00 : Word).extractLsb' 0 8 = 0 := by decide +kernel

theorem test_block_mode_size_too_wide :
    refusalOf (callBlockMode 4 ⟨0, 16, 0, 0, 1⟩ withSource) = some .sizeTooWide := by decide +kernel

theorem witness_StepRunsTheAccess :
    (before (wrBlk 3 7) State.reset).pending = .regWrite 32 0x0C 7 :: []
      ∧ (before (rdBlk 3) State.reset).pending = .regRead 32 0x0C :: []
      ∧ (before (.regRead 32 0x18) State.reset).pending = .regRead 32 0x18 :: []
      ∧ goesOn (regRead 32 0x0C (heldBlock v0)) = true ∧ refusalOf (regRead 32 0x18 State.reset) = some (.reservedOffset 0x18)
      ∧ (before (.outputSize (.tag .bc7Unorm) 2 1) State.reset).pending = .outputSize (.tag .bc7Unorm) 2 1 :: []
      ∧ (before (.decodeImage wideImage) State.reset).pending = .decodeImage wideImage :: []
      ∧ (before (.blockMode ⟨0, 16, 0, 0, 1⟩) State.reset).pending = .blockMode ⟨0, 16, 0, 0, 1⟩ :: [] := by
  decide +kernel

end Sys2Proof.Tests
end

