-- ==== Sys2Proof/Proofs/Slice0/State.lean ====
section
/-! The register block of 10_state.md: which accesses reach a register (R28), BLK (R23) and CMD (R24). -/

namespace Sys2Proof.Machine

/-! ### Admission -/

/-- The access at a register's own offset reaches it. -/
@[simp] theorem admitAccess_offset (n : RegName) : admitAccess 32 n.offset = .ok n := by
  cases n with
  | blk k => match k with | 0 | 1 | 2 | 3 => rfl
  | cmd => rfl
  | status => rfl
  | tex i => revert i; decide

/-- An admitted access is a 32-bit one at the offset of the register it reaches. -/
theorem offset_of_admitAccess {bits off : Nat} {n : RegName} (h : admitAccess bits off = .ok n) :
    bits = 32 ∧ off = n.offset := by
  unfold admitAccess at h
  split_ifs at h with hbits halign hblk hcmd hstatus hreserved htex <;> cases h
  · exact ⟨not_not.mp hbits, by simp only [RegName.offset, Fin.ofNat]; omega⟩
  · exact ⟨not_not.mp hbits, hcmd⟩
  · exact ⟨not_not.mp hbits, hstatus⟩
  · exact ⟨not_not.mp hbits, by simp only [RegName.offset, Fin.ofNat]; omega⟩

theorem admitAccess_eq_ok (bits off : Nat) (n : RegName) :
    admitAccess bits off = .ok n ↔ bits = 32 ∧ off = n.offset := by
  constructor
  · exact offset_of_admitAccess
  · rintro ⟨rfl, rfl⟩
    exact admitAccess_offset n

/-- Off the register map there is a named refusal. -/
theorem admitAccess_eq_error {bits off : Nat} (h : ∀ n : RegName, ¬(bits = 32 ∧ off = n.offset)) :
    ∃ e, admitAccess bits off = .error e := by
  cases ha : admitAccess bits off with
  | error e => exact ⟨e, rfl⟩
  | ok n => exact absurd (offset_of_admitAccess ha) (h n)

theorem regRead_refused {bits off : Nat} {e : Refusal} (s : State) (h : admitAccess bits off = .error e) :
    regRead bits off s = .refused e := by simp [regRead, h]

theorem regWrite_refused {bits off : Nat} {e : Refusal} (v : Word) (s : State) (h : admitAccess bits off = .error e) :
    regWrite bits off v s = .refused e := by simp [regWrite, h]

/-- A read at a register's offset answers with the register's value. -/
@[simp] theorem regRead_offset (n : RegName) (s : State) : regRead 32 n.offset s = .next (readReg s n) :=
  regRead_admitted 32 n.offset s n (admitAccess_offset n)

/-- A write at a register's offset is the write of that register. -/
@[simp] theorem regWrite_offset (n : RegName) (v : Word) (s : State) : regWrite 32 n.offset v s = writeReg n v s := by
  simp [regWrite]

/-- STATUS and TEX are read-only: a write changes nothing. -/
theorem writeReg_readOnly {n : RegName} (v : Word) (s : State) (hcmd : n ≠ .cmd) (hblk : ∀ k, n ≠ .blk k) :
    writeReg n v s = .next s := by
  cases n with
  | blk k => exact absurd rfl (hblk k)
  | cmd => exact absurd rfl hcmd
  | status => rfl
  | tex i => rfl

/-- Settles O41: admission is inverted once, and reads and writes follow it. -/
theorem admittedAccessesAreTheRegisterMap : Obligations.AdmittedAccessesAreTheRegisterMap := by
  refine ⟨admitAccess_eq_ok, ?_, ?_⟩
  · intro bits off s h
    obtain ⟨e, he⟩ := admitAccess_eq_error h
    exact ⟨⟨e, regRead_refused s he⟩, fun v => ⟨e, regWrite_refused v s he⟩⟩
  · intro n v s hcmd hblk
    rw [regWrite_offset, writeReg_readOnly v s hcmd hblk]

/-! ### BLK -/

theorem getBlk_of_sameBlk {s t : State} (h : sameBlk s t) (k : Fin 4) : getBlk t k = getBlk s k := by
  obtain ⟨h0, h1, h2, h3⟩ := h
  match k with
  | 0 => exact h0
  | 1 => exact h1
  | 2 => exact h2
  | 3 => exact h3

/-- Every ending of a block's decode keeps BLK. -/
theorem sameBlk_finishDecode (m : Mode) (f : Nat → Lanes) (s : State) : sameBlk s (finishDecode m f s) := by
  simp [sameBlk]

theorem sameBlk_runDecode (table : Mode → ModeDescriptor) (s : State) : sameBlk s (runDecode table s) := by
  obtain ⟨-, h⟩ | ⟨m, -, ⟨r, -, h⟩ | ⟨raw, r, -, h⟩⟩ := runDecode_cases table s <;> simp [h, sameBlk]

theorem sameBlk_runModeq (s : State) : sameBlk s (runModeq s) := by
  obtain ⟨-, h⟩ | ⟨m, -, h⟩ := runModeq_cases s <;> simp [h, sameBlk]

/-- The core never writes BLK (10_state.md R23): no instruction changes it. -/
theorem sameBlk_of_exec {i : Instr} {s t : State} (h : exec i s = .next t) : sameBlk s t := by
  cases i with
  | bc7m0 | bc7m1 | bc7m2 | bc7m3 | bc7m4 | bc7m5 | bc7m6 | bc7m7 => cases h; exact sameBlk_finishDecode _ _ s
  | bc7Reserved | nop | cmdReserved => cases h; simp [sameBlk]
  | decode => cases h; exact sameBlk_runDecode modeTable s
  | modeq => cases h; exact sameBlk_runModeq s

/-- A BLK register that holds a value reads as that value. -/
theorem regRead_blk_held {s : State} {k : Fin 4} {v : Word} (h : getBlk s k = ⟨v, true⟩) :
    regRead 32 (RegName.blk k).offset s = .next v := by
  rw [regRead_offset, readReg, operandWord_held s k (by simp [h]), h]

/-- BLKk is `blk[32k+31 : 32k]` (10_state.md R23). -/
theorem blkValue_extract (s : State) (k : Fin 4) :
    (blkValue s).extractLsb' (32 * k.val) 32 = (getBlk s k).value := by
  refine BitVec.eq_of_getLsbD_eq fun j hj => ?_
  match k with
  | 0 | 1 | 2 | 3 => grind [blkValue, getBlk]

/-- Settles O43: a BLK write is `setBlk`, whose value no instruction replaces. -/
theorem blkWriteReadsBack : Obligations.BlkWriteReadsBack := by
  intro s k v
  have hset : getBlk (setBlk s k v) k = ⟨v, true⟩ := getBlk_setBlk_same s k v
  refine ⟨setBlk s k v, regWrite_offset (.blk k) v s, regRead_blk_held hset, ?_, ?_,
    fun j => getBlk_setBlk_other s k j v, setBlk_status s k v, setBlk_tex s k v, ?_, ?_⟩
  · intro i u hexec
    exact regRead_blk_held ((getBlk_of_sameBlk (sameBlk_of_exec hexec) k).trans hset)
  · rw [blkValue_extract, hset]
  · intro a
    rw [setBlk_mem]
  · exact ⟨setBlk_pending s k v, setBlk_readData s k v, setBlk_callResult s k v, setBlk_freeUsed s k v⟩

/-! ### CMD -/

/-- A CMD write starts the command of its word. -/
theorem regWrite_cmd (w : Word) (s : State) : regWrite 32 0x10 w s = startCommand w s :=
  regWrite_offset .cmd w s

theorem startCommand_ok {w : Word} {i : Instr} (s : State) (h : decodeCommand w = .ok i) :
    startCommand w s = exec i s := by simp [startCommand, h]

theorem startCommand_error {w : Word} {e : DecodeError} (s : State) (h : decodeCommand w = .error e) :
    startCommand w s = .refused (.commandHighBits w) := by simp [startCommand, h]

/-- The four command words have bits 31:2 zero, so a word with one of them set is none of the four. -/
theorem decodeCommand_highBits {w : Word} (h : w.extractLsb' 2 30 ≠ 0) :
    decodeCommand w = .error (.commandHighBits w) := by
  obtain ⟨h0, h1, h2, h3⟩ : w ≠ 0 ∧ w ≠ 1 ∧ w ≠ 2 ∧ w ≠ 3 := by
    refine ⟨?_, ?_, ?_, ?_⟩ <;> rintro rfl <;> exact h (by decide)
  rw [decodeCommand, if_neg h0, if_neg h1, if_neg h2, if_neg h3]

/-- Settles O44: each command word decodes to its command, and high bits to none. -/
theorem cmdWriteStartsItsCommand : Obligations.CmdWriteStartsItsCommand := by
  intro s w
  simp only [regWrite_cmd]
  refine ⟨startCommand_ok s rfl, startCommand_ok s rfl, startCommand_ok s rfl, startCommand_ok s rfl, ?_,
    regRead_offset .cmd s⟩
  exact fun h => startCommand_error s (decodeCommand_highBits h)

end Sys2Proof.Machine
end

section
/-! The Bit Reader of 40_bit_reader.md: what one read does, in every reader state (R78). -/

namespace Sys2Proof.Machine

/-- Bit `j` of the field at position `p` is `blk[p+j]` (20_memory.md R39). -/
theorem testBit_bitsAt (blk : Block) (p n j : Nat) :
    (bitsAt blk p n).testBit j = (decide (j < n) && blk.getLsbD (p + j)) := by
  rw [bitsAt, Nat.testBit_mod_two_pow, Nat.testBit_shiftRight, BitVec.testBit_toNat]

/-- A reader whose ERR is set, or that is asked for more than its budget, raises BitBudget where it stands. -/
theorem readBits_fails {n : Nat} {r : Reader} (blk : Block) (h : r.err = true ∨ r.budget < n) :
    readBits blk n r = .bitBudget { r with err := true } := if_pos h

/-- A read inside the budget of a reader without ERR, `readBits_ok` for a reader that is not written out. -/
theorem readBits_succeeds {n : Nat} {r : Reader} (blk : Block) (herr : r.err = false) (hn : n ≤ r.budget) :
    readBits blk n r = .value (bitsAt blk r.pos n) ⟨r.pos + n, r.budget - n, false⟩ := by
  obtain ⟨pos, budget, err⟩ := r
  obtain rfl : err = false := herr
  exact readBits_ok blk n pos budget hn

/-- A zero-bit read of a reader without ERR returns 0 and consumes nothing (40_bit_reader.md R79). -/
theorem readBits_zero {r : Reader} (blk : Block) (herr : r.err = false) : readBits blk 0 r = .value 0 r := by
  simp [readBits, herr]

/-- Settles O10: a read fails where it stands, returns 0 for no bits, or returns the field at the position. -/
theorem readBitsReadsOrRaises : Obligations.ReadBitsReadsOrRaises := by
  intro blk n r
  refine ⟨readBits_fails blk, ?zeroBits, ?someBits⟩
  case zeroBits =>
    rintro herr - rfl
    exact readBits_zero blk herr
  case someBits =>
    intro herr hn _
    refine ⟨bitsAt blk r.pos n, readBits_succeeds blk herr hn, bitsAt_lt blk r.pos n, fun j hj => ?_⟩
    simp [testBit_bitsAt, hj]

end Sys2Proof.Machine
end

section
/-! The Endpoint Expander of 43_endpoint_expander.md: R107, and the closed form of R108. -/

namespace Sys2Proof.Machine

open Sys2Proof.Stated

/-! ### The raw value with its p-bit, and the width it has -/

/-- The raw value with its p-bit, if it has one, in the place below it: `shifted` of 43_endpoint_expander.md R107. -/
def withPBit (v pbc q : Nat) : Nat := if pbc = 1 then 2 * v + q else v

/-- The model's shift and or put the p-bit below the value. -/
theorem shiftLeft_or_pBit {pbc q : Nat} (v : Nat) (hpbc : pbc ≤ 1) (hq : q ≤ 1) :
    v <<< pbc ||| (if pbc = 1 then q else 0) = withPBit v pbc q := by
  obtain rfl | rfl : pbc = 0 ∨ pbc = 1 := by omega
  · simp [withPBit]
  · have hor : v <<< 1 + q = v <<< 1 ||| q := Nat.shiftLeft_add_eq_or_of_lt (by omega) v
    rw [if_pos rfl, ← hor, Nat.shiftLeft_eq, Nat.mul_comm]
    rfl

/-- A value that fits its field fits, with its p-bit, in the precision. -/
theorem withPBit_lt {v bits pbc q : Nat} (hpbc : pbc ≤ 1) (hq : q ≤ 1) (hv : v < 2 ^ bits) :
    withPBit v pbc q < 2 ^ (bits + pbc) := by
  obtain rfl | rfl : pbc = 0 ∨ pbc = 1 := by omega
  · simpa [withPBit] using hv
  · simp only [withPBit, if_true, Nat.pow_succ]
    omega

/-! ### The expander, below precision 8 and at it -/

theorem expand_of_lt_eight {bits pbc q : Nat} (v : Nat) (hpbc : pbc ≤ 1) (hq : q ≤ 1) (hp : bits + pbc < 8) :
    expand v bits pbc q = withPBit v pbc q * 2 ^ (8 - (bits + pbc))
      ||| withPBit v pbc q * 2 ^ (8 - (bits + pbc)) / 2 ^ (bits + pbc) := by
  simp only [expand, shiftLeft_or_pBit v hpbc hq, if_pos hp]
  rw [Nat.shiftLeft_eq, Nat.shiftRight_eq_div_pow]

theorem expand_of_eq_eight {bits pbc q : Nat} (v : Nat) (hpbc : pbc ≤ 1) (hq : q ≤ 1) (hp : bits + pbc = 8) :
    expand v bits pbc q = withPBit v pbc q := by
  simp [expand, shiftLeft_or_pBit v hpbc hq, hp]

/-! ### A `p`-bit value at the top of the byte, its top bits repeated below -/

/-- A `p`-bit value shifted to the top of the byte, or-ed with itself shifted right, stays a byte. -/
theorem topBits_or_lt {p n : Nat} (hp : p ≤ 8) (hn : n < 2 ^ p) :
    n * 2 ^ (8 - p) ||| n * 2 ^ (8 - p) / 2 ^ p < 2 ^ 8 := by
  have htop : n * 2 ^ (8 - p) < 2 ^ 8 :=
    calc n * 2 ^ (8 - p) < 2 ^ p * 2 ^ (8 - p) := Nat.mul_lt_mul_of_pos_right hn (Nat.two_pow_pos _)
      _ = 2 ^ 8 := by rw [← Nat.pow_add, Nat.add_sub_cancel' hp]
  exact Nat.or_lt_two_pow htop ((Nat.div_le_self _ _).trans_lt htop)

/-- From precision 4 on the repeated bits lie below the value, so the or is the sum of the closed form. -/
theorem topBits_or_eq_widen {p n : Nat} (h4 : 4 ≤ p) (h8 : p ≤ 8) (hn : n < 2 ^ p) :
    n * 2 ^ (8 - p) ||| n * 2 ^ (8 - p) / 2 ^ p = widen p n := by
  have hpow : 2 ^ p = 2 ^ (2 * p - 8) * 2 ^ (8 - p) := by rw [← Nat.pow_add]; congr 1; omega
  have hrepeated : n * 2 ^ (8 - p) / 2 ^ p = n / 2 ^ (2 * p - 8) := by
    rw [hpow, Nat.mul_div_mul_right _ _ (Nat.two_pow_pos _)]
  have hbelow : n / 2 ^ (2 * p - 8) < 2 ^ (8 - p) := Nat.div_lt_of_lt_mul (hpow ▸ hn)
  rw [hrepeated, widen, Nat.mul_comm, Nat.two_pow_add_eq_or_of_lt hbelow]

/-- At precision 8 there is no bit to repeat. -/
theorem widen_eight {n : Nat} (hn : n < 2 ^ 8) : widen 8 n = n := by
  simpa [widen] using hn

/-- Settles O15: below precision 8 by the or of the value and its top bits, at precision 8 by the value itself. -/
theorem expandRepeatsTheTopBits : Obligations.ExpandRepeatsTheTopBits := by
  intro v bits pbc q hpbc hq _ hp hv
  have hn : withPBit v pbc q < 2 ^ (bits + pbc) := withPBit_lt hpbc hq hv
  refine ⟨expand_of_lt_eight v hpbc hq, expand_of_eq_eight v hpbc hq, ?isByte, ?closedForm⟩
  case isByte =>
    rcases hp.lt_or_eq with hlt | heq
    · rw [expand_of_lt_eight v hpbc hq hlt]
      exact topBits_or_lt hp hn
    · rw [expand_of_eq_eight v hpbc hq heq]
      rwa [heq] at hn
  case closedForm =>
    intro h4
    change expand v bits pbc q = widen (bits + pbc) (withPBit v pbc q)
    rcases hp.lt_or_eq with hlt | heq
    · rw [expand_of_lt_eight v hpbc hq hlt, topBits_or_eq_widen h4 hp hn]
    · rw [expand_of_eq_eight v hpbc hq heq, heq, widen_eight (heq ▸ hn)]

end Sys2Proof.Machine
end

section
/-! The Interpolator of 44_interpolator.md: R116, and the bounds that keep the blend a byte. -/

namespace Sys2Proof.Machine

open Sys2Proof.Stated

/-- Every entry of the three weight tables is at most 64. -/
theorem le_of_mem_weightTable {w x : Nat} (h : x ∈ weightTable w) : x ≤ 64 := by
  match w with
  | 2 => exact (by decide : ∀ x ∈ weights2, x ≤ 64) x h
  | 3 => exact (by decide : ∀ x ∈ weights3, x ≤ 64) x h
  | 4 => exact (by decide : ∀ x ∈ weights4, x ≤ 64) x h
  | 0 | 1 | _ + 5 => cases h

/-- A weight is at most 64: an entry of its table, or 0 past the table's end. -/
theorem weight_le (w k : Nat) : weight w k ≤ 64 := by
  rw [weight, List.getD_eq_getElem?_getD]
  cases hk : (weightTable w)[k]? with
  | none => exact Nat.zero_le 64
  | some x => exact le_of_mem_weightTable (List.mem_of_getElem? hk)

/-- Endpoints up to `m`, at weights that sum to 64, blend to at most `m`: the constant 32 is below the divisor. -/
theorem mix_le {a b m wt : Nat} (ha : a ≤ m) (hb : b ≤ m) (hwt : wt ≤ 64) : mix a b wt ≤ m := by
  have hsum : (64 - wt) * a + wt * b ≤ 64 * m :=
    calc (64 - wt) * a + wt * b
      _ ≤ (64 - wt) * m + wt * m := by gcongr
      _ = 64 * m := by rw [← Nat.add_mul, Nat.sub_add_cancel hwt]
  rw [mix]
  omega

/-- The model's shift by 6 is the division of the blend, whose value the byte holds modulo 256. -/
theorem toNat_interpolate (e0 e1 : Byte) (k w : Nat) :
    (interpolate e0 e1 k w).toNat = mix e0.toNat e1.toNat (weight w k) % 256 := by
  simp only [interpolate, mix, BitVec.toNat_ofNat, Nat.shiftRight_eq_div_pow]

/-- Settles O17: the blend of two bytes is at most 255, so the byte loses no bit of it. -/
theorem interpolateIsTheRoundedBlend : Obligations.InterpolateIsTheRoundedBlend := by
  intro e0 e1 w k _ _
  have hbyte : mix e0.toNat e1.toNat (weight w k) ≤ 255 :=
    mix_le (Nat.le_of_lt_succ e0.isLt) (Nat.le_of_lt_succ e1.isLt) (weight_le w k)
  rw [toNat_interpolate, Nat.mod_eq_of_lt (Nat.lt_succ_of_le hbyte)]

end Sys2Proof.Machine
end

section
/-! The commands of 45_block_decoder.md: NOP (R122). -/

namespace Sys2Proof.Machine

/-- NOP goes on in the state it started from (45_block_decoder.md R122). -/
@[simp] theorem exec_nop (s : State) : exec .nop s = .next s := rfl

/-- The zero word is the NOP command (30_encoding.md R72). -/
theorem decodeCommand_zero : decodeCommand 0 = .ok .nop := rfl

/-- Settles O19: the zero word decodes to NOP, so a CMD write of it starts NOP, which goes on in the same state. -/
theorem nopChangesNothing : Obligations.NopChangesNothing := by
  refine ⟨decodeCommand_zero, fun s => ⟨exec_nop s, ?cmdWrite⟩⟩
  case cmdWrite =>
    calc regWrite 32 0x10 0 s
      _ = startCommand 0 s := regWrite_cmd 0 s
      _ = exec .nop s := startCommand_ok s decodeCommand_zero
      _ = .next s := exec_nop s

end Sys2Proof.Machine
end

section
/-! The host functions of 46_host_interface.md: pass 1 of `decode` (R157), and `block_mode` (R159). -/

namespace Sys2Proof.Machine

open Sys2Proof.Stated

/-- A call that only returns leaves everything but its result alone. -/
theorem onlyResult_returnCall (s : State) (r : CallResult) : onlyResult s (returnCall r s) r :=
  ⟨rfl, ⟨rfl, rfl, rfl, rfl⟩, rfl, rfl, fun _ => rfl, rfl, rfl, rfl⟩

/-! ### Pass 1 of `decode` -/

/-- The addresses of the blocks of an image, in the order pass 1 reads them (46_host_interface.md R149, R155). -/
def blockAddrs (args : DecodeArgs) : List Nat :=
  (blockGrid (blocksAcross args.width) (blocksAcross args.height)).map (blockAddr args.src (blocksAcross args.width))

theorem mem_blockGrid {bw bh : Nat} {at' : Nat × Nat} : at' ∈ blockGrid bw bh ↔ at'.1 < bw ∧ at'.2 < bh := by
  obtain ⟨x, y⟩ := at'
  simp [blockGrid, and_comm]

theorem mem_blockAddrs {args : DecodeArgs} {a : Nat} : a ∈ blockAddrs args ↔
    ∃ x y, x < (args.width + 3) / 4 ∧ y < (args.height + 3) / 4 ∧ imageBlock args x y = a := by
  simp [blockAddrs, mem_blockGrid, and_assoc, blocksAcross, blockAddr, imageBlock]

/-- With every first byte present, pass 1 finds a reserved block exactly where some first byte is 0. -/
theorem anyReserved_of_present {m : Memory} {addrs : List Nat} (h : ∀ a ∈ addrs, (Memory.read m a).isSome = true) :
    anyReserved m addrs = .next (decide (∃ a ∈ addrs, Memory.read m a = some 0)) := by
  induction addrs with
  | nil => simp [anyReserved]
  | cons a rest ih =>
    obtain ⟨b, hb⟩ := Option.isSome_iff_exists.mp (h a List.mem_cons_self)
    have hrest := ih fun c hc => h c (List.mem_cons_of_mem a hc)
    rw [anyReserved, (readByte_eq_next m a b).mpr hb, andThen_next]
    by_cases hzero : b = 0#8
    · simp [hb, hzero]
    · simp [hb, hzero, hrest]

/-- A BC7 `decode` whose pass 1 finds a reserved block returns failure and does nothing else. -/
theorem decodeBc7_of_anyReserved {args : DecodeArgs} {s : State}
    (hsize : sourceBytes args.width args.height ≤ args.srcSize) (h : anyReserved s.mem (blockAddrs args) = .next true) :
    decodeBc7 args s = .next (returnCall (.decode false) s) := by
  unfold sourceBytes at hsize
  unfold blockAddrs at h
  simp [decodeBc7, Nat.not_lt.mpr hsize, h]

/-- Settles O56: pass 1 meets the reserved block before any block is decoded. -/
theorem reservedBlockFailsTheWholeImage : Obligations.ReservedBlockFailsTheWholeImage := by
  intro bits args s hadmitted hsize hpresent hreserved
  obtain ⟨hformat, hfits, hwidth, hheight, hdst⟩ := hadmitted
  have hallPresent : ∀ a ∈ blockAddrs args, (Memory.read s.mem a).isSome = true := by
    intro a ha
    obtain ⟨x, y, hx, hy, rfl⟩ := mem_blockAddrs.mp ha
    exact hpresent x y hx hy
  have hsomeZero : ∃ a ∈ blockAddrs args, Memory.read s.mem a = some 0 := by
    obtain ⟨x, y, hx, hy, hzero⟩ := hreserved
    exact ⟨imageBlock args x y, mem_blockAddrs.mpr ⟨x, y, hx, hy, rfl⟩, hzero⟩
  have hscan : anyReserved s.mem (blockAddrs args) = .next true := by
    rw [anyReserved_of_present hallPresent, decide_eq_true hsomeZero]
  refine ⟨returnCall (.decode false) s, ?returns, onlyResult_returnCall s _⟩
  case returns =>
    calc callDecode bits args s
      _ = decodeDispatch (formatOf args.format) args s :=
        callDecode_eq_dispatch bits args s hfits hwidth hheight (hformat ▸ hdst)
      _ = decodeBc7 args s := by rw [hformat]; rfl
      _ = .next (returnCall (.decode false) s) := decodeBc7_of_anyReserved hsize hscan

/-! ### A word of host memory -/

/-- The four bytes of a word, least significant first, are its value. -/
theorem natOfBytes_word (w : Word) :
    natOfBytes ((List.range 4).map fun j => w.extractLsb' (8 * j) 8) = w.toNat := by
  have hw := w.isLt
  simp [List.range_succ, natOfBytes, Nat.shiftRight_eq_div_pow]
  omega

/-- `MemRead(a, 4)` of a word's four bytes is the word (20_memory.md R44). -/
theorem memRead_word {m : Memory} {a : Nat} {w : Word}
    (h : ∀ j, j < 4 → Memory.read m (a + j) = some (w.extractLsb' (8 * j) 8)) : memRead m a 4 = .next w.toNat := by
  refine (memRead_eq_next m 4 a w.toNat).mpr ⟨(List.range 4).map fun j => w.extractLsb' (8 * j) 8, by simp, ?_,
    (natOfBytes_word w).symm⟩
  rw [Memory.span, List.map_map]
  exact List.map_congr_left fun j hj => h j (List.mem_range.mp hj)

/-! ### The mode and STATUS -/

/-- The mode is `m` exactly when bit `m` is set and no bit below it is (45_block_decoder.md R125). -/
theorem lowestSetBit_eq_some {b : Byte} {m : Mode} :
    lowestSetBit b = some m ↔ b.getLsbD m.val = true ∧ ∀ j, j < m.val → b.getLsbD j = false := by
  change (List.finRange 8).find? (fun k => b.getLsbD k.val) = some m ↔ _
  rw [List.find?_eq_some_iff_getElem]
  refine and_congr_right fun _ => ⟨?_, fun hbelow => ⟨m.val, by simp, by simp, fun j hj => by simp [hbelow j hj]⟩⟩
  rintro ⟨i, hi, rfl, hbelow⟩ j hj
  simpa using hbelow j (by simpa using hj)

/-- A zero byte has no mode (30_encoding.md R70). -/
theorem lowestSetBit_zero : lowestSetBit 0 = none := rfl

/-- ReservedMode leaves STATUS 0x00000006 (60_exceptions.md R166). -/
theorem faultStatus_reservedMode : faultStatus .reservedMode = 0x00000006 := by decide

/-- With the mode known, STATUS is 0x80 | (m << 4) (45_block_decoder.md R124). -/
theorem modeKnownStatus_eq (m : Mode) : modeKnownStatus m = BitVec.ofNat 32 (0x80 + 16 * m.val) := by
  revert m; decide

@[simp] theorem statusFault_modeKnownStatus (m : Mode) : statusFault (modeKnownStatus m) = false := by
  revert m; decide

@[simp] theorem statusMode_modeKnownStatus (m : Mode) : (statusMode (modeKnownStatus m)).toNat = m.val := by
  revert m; decide

/-! ### `block_mode` -/

/-- MODEQ writes STATUS only (45_block_decoder.md R124). -/
theorem sameBesideStatus_runModeq (s : State) : sameBesideStatus s (runModeq s) := by
  obtain ⟨-, h⟩ | ⟨m, -, h⟩ := runModeq_cases s <;>
    simp [h, sameBesideStatus, sameBesideStatusTex, sameBlk, sameMemory, sameHost]

/-- A BLK register that holds a value is met as that value. -/
theorem operandWord_of_getBlk {s : State} {k : Fin 4} {w : Word} (h : getBlk s k = ⟨w, true⟩) : operandWord s k = w := by
  rw [operandWord_held s k (by rw [h]), h]

/-- MODEQ over a BLK0 whose byte 0 is 0 takes ReservedMode. -/
theorem runModeq_status_of_reserved {s : State} {w : Word} (hblk : getBlk s 0 = ⟨w, true⟩) (h : w.extractLsb' 0 8 = 0) :
    (runModeq s).status = faultStatus .reservedMode := by
  have hnone : lowestSetBit ((operandWord s 0).extractLsb' 0 8) = none := by
    rw [operandWord_of_getBlk hblk, h, lowestSetBit_zero]
  simp [runModeq, hnone]

/-- MODEQ over a BLK0 whose byte 0 has the mode `m` reports it. -/
theorem runModeq_status_of_mode {s : State} {w : Word} {m : Mode} (hblk : getBlk s 0 = ⟨w, true⟩)
    (h : lowestSetBit (w.extractLsb' 0 8) = some m) : (runModeq s).status = modeKnownStatus m := by
  have hsome : lowestSetBit ((operandWord s 0).extractLsb' 0 8) = some m := by
    rw [operandWord_of_getBlk hblk, h]
  simp [runModeq, hsome]

/-- A CMD write of MODEQ over a BLK0 that holds a value. -/
theorem regWrite_modeq {s : State} (h : s.blk0.held = true) : regWrite 32 0x10 2 s = .next (runModeq s) := by
  calc regWrite 32 0x10 2 s
    _ = startCommand 2 s := regWrite_cmd 2 s
    _ = exec .modeq s := startCommand_ok s rfl
    _ = .next (runModeq s) := execModeq_held s h

/-- What `block_mode` returns for the STATUS it reads after its MODEQ (46_host_interface.md R159). -/
def blockModeValue (status : Word) : Int :=
  if statusFault status then Config.blockModeFail else ((statusMode status).toNat : Int)

theorem blockModeValue_reservedMode : blockModeValue (faultStatus .reservedMode) = Config.blockModeFail :=
  if_pos (by decide)

theorem blockModeValue_modeKnownStatus (m : Mode) : blockModeValue (modeKnownStatus m) = (m.val : Int) := by
  simp [blockModeValue]

/-- A `block_mode` of a block inside its span loads BLK0, runs MODEQ and returns what STATUS says. -/
theorem callBlockMode_inside {bits : Nat} {args : BlockModeArgs} {s : State} {w : Word}
    (hfits : bufferFits bits args.srcSize = true)
    (hspan : blockAddr args.src args.blockWidth (args.blockX, args.blockY) + 16 ≤ args.src + args.srcSize)
    (hread : memRead s.mem (blockAddr args.src args.blockWidth (args.blockX, args.blockY)) 4 = .next w.toNat) :
    callBlockMode bits args s =
      .next (returnCall (.blockMode (blockModeValue (runModeq (setBlk s 0 w)).status)) (runModeq (setBlk s 0 w))) := by
  have hload : regWrite 32 0x00 (BitVec.ofNat 32 w.toNat) s = .next (setBlk s 0 w) := by
    rw [BitVec.ofNat_toNat, BitVec.setWidth_eq]
    exact regWrite_offset (.blk 0) w s
  have hmodeq : regWrite 32 0x10 2 (setBlk s 0 w) = .next (runModeq (setBlk s 0 w)) := regWrite_modeq rfl
  have hstatus (t : State) : regRead 32 0x14 t = .next t.status := regRead_offset .status t
  simp only [callBlockMode, hfits, Nat.not_lt.mpr hspan, hread, hload, hmodeq, hstatus, andThen_next, blockModeValue,
    Bool.not_true, Bool.false_eq_true, if_false]
  split <;> rfl

/-- The failure value lies outside 0 to 7. -/
theorem blockModeFail_outside : Config.blockModeFail < 0 ∨ 7 < Config.blockModeFail := by
  unfold Config.blockModeFail
  split
  · left; omega
  · right; omega

/-- Settles O59: the call ends in the state after its MODEQ, over a BLK0 that holds the block's first word. -/
theorem blockModeReturnsTheMode : Obligations.BlockModeReturnsTheMode := by
  intro bits args s word hsize a
  have hfits : bufferFits bits args.srcSize = true := (bufferFits_eq_true bits args.srcSize).mpr hsize
  refine ⟨?outside, ?inside, blockModeFail_outside⟩
  case outside =>
    intro hspan
    exact ⟨_, callBlockMode_outside bits args s hfits hspan, onlyResult_returnCall s _⟩
  case inside =>
    intro hspan hbytes
    have hblk0 : getBlk (setBlk s 0 word) 0 = ⟨word, true⟩ := getBlk_setBlk_same s 0 word
    obtain ⟨htex, ⟨h0, h1, h2, h3⟩, hmem, -⟩ := sameBesideStatus_runModeq (setBlk s 0 word)
    refine ⟨_, callBlockMode_inside hfits hspan (memRead_word hbytes), htex, hmem, h0, h1, h2, h3, ?reserved, ?mode⟩
    case reserved =>
      intro hzero
      have hst := runModeq_status_of_reserved hblk0 hzero
      refine ⟨?_, by rw [returnCall_status, hst, faultStatus_reservedMode]⟩
      rw [returnCall_callResult, hst, blockModeValue_reservedMode]
    case mode =>
      intro m hset hbelow
      have hmode : lowestSetBit (word.extractLsb' 0 8) = some m :=
        lowestSetBit_eq_some.mpr ⟨by simpa using hset, fun j hj => by simp [hbelow j hj]⟩
      have hst := runModeq_status_of_mode hblk0 hmode
      refine ⟨?_, by rw [returnCall_status, hst, modeKnownStatus_eq]⟩
      rw [returnCall_callResult, hst, blockModeValue_modeKnownStatus]

end Sys2Proof.Machine
end

section
/-! The faults of 60_exceptions.md: fault entry (R169), ReservedMode (R166) and IllegalCommand (R168). -/

namespace Sys2Proof.Machine

/-! ### The fields of an assembled STATUS (10_state.md R25) -/

section StatusFields
variable (valid fault : Bool) (fcause : BitVec 2) (mode : BitVec 3) (modeValid : Bool)

/-- Bit by bit: VALID, FAULT, FCAUSE from bit 2, MODE from bit 4, MODE_VALID, and zeros from bit 8. -/
theorem getLsbD_statusWord (j : Nat) : (statusWord valid fault fcause mode modeValid).getLsbD j =
    if j = 0 then valid
    else if j = 1 then fault
    else if j < 4 then fcause.getLsbD (j - 2)
    else if j < 7 then mode.getLsbD (j - 4)
    else if j = 7 then modeValid else false := by
  change BitVec.getLsbD (w := 24 + 1 + 3 + 2 + 1 + 1) _ j = _
  simp only [statusWord, BitVec.getLsbD_append, BitVec.getLsbD_ofBool, BitVec.getLsbD_zero]
  grind

@[simp] theorem statusValid_statusWord : statusValid (statusWord valid fault fcause mode modeValid) = valid :=
  getLsbD_statusWord valid fault fcause mode modeValid 0

@[simp] theorem statusFault_statusWord : statusFault (statusWord valid fault fcause mode modeValid) = fault :=
  getLsbD_statusWord valid fault fcause mode modeValid 1

@[simp] theorem statusFcause_statusWord : statusFcause (statusWord valid fault fcause mode modeValid) = fcause := by
  refine BitVec.eq_of_getLsbD_eq fun j hj => ?_
  rw [statusFcause, BitVec.getLsbD_extractLsb', getLsbD_statusWord]
  grind

@[simp] theorem statusMode_statusWord : statusMode (statusWord valid fault fcause mode modeValid) = mode := by
  refine BitVec.eq_of_getLsbD_eq fun j hj => ?_
  rw [statusMode, BitVec.getLsbD_extractLsb', getLsbD_statusWord]
  grind

@[simp] theorem statusModeValid_statusWord : statusModeValid (statusWord valid fault fcause mode modeValid) = modeValid :=
  getLsbD_statusWord valid fault fcause mode modeValid 7

@[simp] theorem statusReserved_statusWord : statusReserved (statusWord valid fault fcause mode modeValid) = 0 := by
  refine BitVec.eq_of_getLsbD_eq fun j hj => ?_
  rw [statusReserved, BitVec.getLsbD_extractLsb', getLsbD_statusWord]
  grind

end StatusFields

/-! ### Fault entry -/

/-- A STATUS write changes STATUS only. -/
theorem sameBesideStatus_setStatus (s : State) (w : Word) : sameBesideStatus s (setStatus s w) := by
  simp [sameBesideStatus, sameBesideStatusTex, sameBlk, sameMemory, sameHost]

theorem sameBesideStatus_takeFault (f : CoreFault) (s : State) : sameBesideStatus s (takeFault f s) :=
  sameBesideStatus_setStatus s (faultStatus f)

/-- Fault entry overwrites the STATUS that the start of the command cleared. -/
@[simp] theorem takeFault_beginCommand (f : CoreFault) (s : State) : takeFault f (beginCommand s) = takeFault f s := rfl

/-- Settles O40: the fields of the assembled fault word, and the mode in it case by case. -/
theorem faultEntryWritesStatusOnly : Obligations.FaultEntryWritesStatusOnly := by
  intro f s
  rw [takeFault_status, faultStatus]
  refine ⟨statusValid_statusWord .., statusFault_statusWord .., statusFcause_statusWord .., ?modeKnown, ?modeUnknown,
    statusReserved_statusWord .., sameBesideStatus_takeFault f s⟩
  case modeKnown =>
    rintro m rfl
    exact ⟨statusMode_statusWord .., statusModeValid_statusWord ..⟩
  case modeUnknown =>
    intro hother
    have hmode : f.mode = none := by
      cases f with
      | reservedMode | illegalCommand => rfl
      | bitBudget m => exact absurd rfl (hother m)
    simp [hmode]

/-! ### IllegalCommand -/

/-- IllegalCommand leaves STATUS 0x0000000E (60_exceptions.md R168). -/
theorem faultStatus_illegalCommand : faultStatus .illegalCommand = 0x0000000E := by decide

/-- The reserved command takes IllegalCommand in every state. -/
theorem exec_cmdReserved (s : State) : exec .cmdReserved s = .next (takeFault .illegalCommand s) := rfl

/-- Settles O20: the word 3 starts the reserved command, which only takes its fault; high bits decode to no command. -/
theorem reservedCommandTakesIllegalCommand : Obligations.ReservedCommandTakesIllegalCommand := by
  intro s
  refine ⟨⟨takeFault .illegalCommand s, exec_cmdReserved s, ?cmdWrite, faultStatus_illegalCommand,
    statusFault_statusWord .., statusFcause_statusWord .., sameBesideStatus_takeFault _ s⟩, ?highBits⟩
  case cmdWrite =>
    calc regWrite 32 0x10 3 s
      _ = startCommand 3 s := regWrite_cmd 3 s
      _ = exec .cmdReserved s := startCommand_ok s rfl
      _ = .next (takeFault .illegalCommand s) := exec_cmdReserved s
  case highBits =>
    intro w hhigh
    exact ⟨_, (regWrite_cmd w s).trans (startCommand_error s (decodeCommand_highBits hhigh))⟩

/-! ### ReservedMode -/

/-- DECODE of a held block whose byte 0 is 0 takes ReservedMode. -/
theorem exec_decode_of_reserved {s : State} (hheld : blkHeld s = true) (hzero : (blkValue s).extractLsb' 0 8 = 0) :
    exec .decode s = .next (takeFault .reservedMode s) := by
  have hnone : lowestSetBit (byte0 (operandBlock s)) = none := by
    rw [operandBlock_held s hheld, byte0, hzero, lowestSetBit_zero]
  obtain ⟨-, hrun⟩ := (runDecode_cases modeTable s).resolve_right (by simp [hnone])
  calc exec .decode s
    _ = .next (runDecode modeTable s) := execDecode_held s hheld
    _ = .next (takeFault .reservedMode s) := by rw [hrun, takeFault_beginCommand]

/-- MODEQ over a held BLK0 whose byte 0 is 0 takes ReservedMode. -/
theorem exec_modeq_of_reserved {s : State} (hheld : s.blk0.held = true) (hzero : s.blk0.value.extractLsb' 0 8 = 0) :
    exec .modeq s = .next (takeFault .reservedMode s) := by
  have hnone : lowestSetBit ((operandWord s 0).extractLsb' 0 8) = none := by
    rw [operandWord_held s 0 hheld, getBlk, hzero, lowestSetBit_zero]
  obtain ⟨-, hrun⟩ := (runModeq_cases s).resolve_right (by simp [hnone])
  calc exec .modeq s
    _ = .next (runModeq s) := execModeq_held s hheld
    _ = .next (takeFault .reservedMode s) := by rw [hrun, takeFault_beginCommand]

/-- The reserved block takes ReservedMode in every state, whatever its other bits. -/
theorem exec_bc7Reserved (rest : BitVec 120) (s : State) :
    exec (.bc7Reserved rest) s = .next (takeFault .reservedMode s) := rfl

/-- The outcome the three ways into ReservedMode share. -/
theorem takesReservedMode {i : Instr} {s : State} (h : exec i s = .next (takeFault .reservedMode s)) :
    ∃ t, exec i s = .next t ∧ t.status = 0x00000006 ∧ sameBesideStatus s t :=
  ⟨_, h, faultStatus_reservedMode, sameBesideStatus_takeFault .reservedMode s⟩

/-- Settles O21: DECODE, MODEQ and the reserved block all end in the entry of ReservedMode. -/
theorem reservedBlockTakesReservedMode : Obligations.ReservedBlockTakesReservedMode :=
  ⟨fun _ hheld hzero => takesReservedMode (exec_decode_of_reserved hheld hzero),
    fun _ hheld hzero => takesReservedMode (exec_modeq_of_reserved hheld hzero),
    fun rest s => takesReservedMode (exec_bc7Reserved rest s)⟩

end Sys2Proof.Machine
end

section
/-! Mode selection (30_encoding.md R57, 45_block_decoder.md R125): the mask test, the unary code of the mode and the lowest set
bit, and the decoder's branches through them. -/

namespace Sys2Proof.Machine

/-! ### The selector -/

/-- The selector field holds the one of mode `m` exactly when bit `m` is the lowest set one. -/
theorem bitsAt_eq_two_pow_iff (blk : Block) (m : Nat) :
    bitsAt blk 0 (m + 1) = 2 ^ m ↔ blk.getLsbD m = true ∧ ∀ j, j < m → blk.getLsbD j = false := by
  have htest (j : Nat) : (bitsAt blk 0 (m + 1)).testBit j = (decide (j < m + 1) && blk.getLsbD j) := by
    rw [testBit_bitsAt, Nat.zero_add]
  constructor
  · intro h
    rw [h] at htest
    refine ⟨by simpa using htest m, fun j hj => ?_⟩
    simpa [hj.ne', Nat.lt_succ_of_lt hj] using htest j
  · rintro ⟨hset, hbelow⟩
    refine Nat.eq_of_testBit_eq fun j => ?_
    rw [htest, Nat.testBit_two_pow]
    rcases Nat.lt_trichotomy j m with hlt | rfl | hgt
    · simp [hbelow j hlt, hlt.ne']
    · simp [hset]
    · simp [Nat.not_lt.mpr hgt, hgt.ne]

/-- The mask keeps the selector field (30_encoding.md R57). -/
theorem matchesMode_iff_selector (blk : Block) (m : Mode) :
    matchesMode blk m.val = true ↔ bitsAt blk 0 (m.val + 1) = 2 ^ m.val := by
  have hmask : field blk 7 0 &&& (2 ^ (m.val + 1) - 1) = bitsAt blk 0 (m.val + 1) := by
    have hdvd : 2 ^ (m.val + 1) ∣ 2 ^ 8 := Nat.pow_dvd_pow 2 m.isLt
    rw [Nat.and_two_pow_sub_one_eq_mod]
    exact Nat.mod_mod_of_dvd _ hdvd
  rw [matchesMode, hmask, beq_iff_eq]

theorem matchesMode_iff_unary (blk : Block) (m : Mode) :
    matchesMode blk m.val = true ↔ blk.getLsbD m.val = true ∧ ∀ j, j < m.val → blk.getLsbD j = false :=
  (matchesMode_iff_selector blk m).trans (bitsAt_eq_two_pow_iff blk m.val)

/-- Bits 7:0 of a block are those of its byte 0. -/
theorem getLsbD_byte0 (blk : Block) {j : Nat} (h : j < 8) : (byte0 blk).getLsbD j = blk.getLsbD j := by
  simp [byte0, h]

/-- The unary code that a block begins with is that of its byte 0. -/
theorem lowestSetBit_byte0 (blk : Block) (m : Mode) :
    lowestSetBit (byte0 blk) = some m ↔ blk.getLsbD m.val = true ∧ ∀ j, j < m.val → blk.getLsbD j = false := by
  rw [lowestSetBit_eq_some, getLsbD_byte0 blk m.isLt]
  refine and_congr_right fun _ => forall₂_congr fun j hj => ?_
  rw [getLsbD_byte0 blk (hj.trans m.isLt)]

theorem matchesMode_iff_lowestSetBit (blk : Block) (m : Mode) :
    matchesMode blk m.val = true ↔ lowestSetBit (byte0 blk) = some m :=
  (matchesMode_iff_unary blk m).trans (lowestSetBit_byte0 blk m).symm

/-- Only a zero byte has no set bit. -/
theorem lowestSetBit_eq_none {b : Byte} : lowestSetBit b = none ↔ b = 0 := by
  constructor
  · intro h
    refine BitVec.eq_of_getLsbD_eq fun j hj => ?_
    change (List.finRange 8).find? (fun k => b.getLsbD k.val) = none at h
    simpa using List.find?_eq_none.mp h ⟨j, hj⟩ (by simp)
  · rintro rfl
    exact lowestSetBit_zero

/-- Settles O5: the masked field is the unary code, which the scan finds. -/
theorem selectorMatchesLowestSetBit : Obligations.SelectorMatchesLowestSetBit := fun blk m =>
  ⟨matchesMode_iff_unary blk m, matchesMode_iff_lowestSetBit blk m, lowestSetBit_eq_none⟩

/-! ### The branches of the decoder -/

/-- The decoder of one mode (30_encoding.md R58 to R65). -/
def decodeMode (m : Mode) (blk : Block) : Instr :=
  match m with
  | 0 => decodeMode0 blk
  | 1 => decodeMode1 blk
  | 2 => decodeMode2 blk
  | 3 => decodeMode3 blk
  | 4 => decodeMode4 blk
  | 5 => decodeMode5 blk
  | 6 => decodeMode6 blk
  | 7 => decodeMode7 blk

/-- The reserved instruction with the bits of a block that nothing examines (30_encoding.md R70). -/
def reservedInstr (blk : Block) : Instr := .bc7Reserved (BitVec.ofNat 120 (field blk 127 8))

/-- The cascade of mask tests is a case split on the lowest set bit of byte 0. -/
theorem decodeBlock_eq (blk : Block) :
    decodeBlock blk = ((lowestSetBit (byte0 blk)).map (decodeMode · blk)).getD (reservedInstr blk) := by
  have htest (k : Mode) : matchesMode blk k.val = decide (lowestSetBit (byte0 blk) = some k) := by
    rw [← Bool.coe_iff_coe, matchesMode_iff_lowestSetBit, decide_eq_true_iff]
  have h0 : matchesMode blk 0 = _ := htest 0
  have h1 : matchesMode blk 1 = _ := htest 1
  have h2 : matchesMode blk 2 = _ := htest 2
  have h3 : matchesMode blk 3 = _ := htest 3
  have h4 : matchesMode blk 4 = _ := htest 4
  have h5 : matchesMode blk 5 = _ := htest 5
  have h6 : matchesMode blk 6 = _ := htest 6
  have h7 : matchesMode blk 7 = _ := htest 7
  rw [decodeBlock, h0, h1, h2, h3, h4, h5, h6, h7]
  cases lowestSetBit (byte0 blk) with
  | none => rfl
  | some m => match m with | 0 | 1 | 2 | 3 | 4 | 5 | 6 | 7 => rfl

theorem decodeBlock_of_mode {blk : Block} {m : Mode} (h : lowestSetBit (byte0 blk) = some m) :
    decodeBlock blk = decodeMode m blk := by rw [decodeBlock_eq, h]; rfl

theorem decodeBlock_of_reserved {blk : Block} (h : byte0 blk = 0) : decodeBlock blk = reservedInstr blk := by
  rw [decodeBlock_eq, h]; rfl

/-- No mode's decoder answers with the reserved instruction. -/
theorem decodeMode_ne_reserved (m : Mode) (blk : Block) (rest : BitVec 120) : decodeMode m blk ≠ .bc7Reserved rest := by
  match m with | 0 | 1 | 2 | 3 | 4 | 5 | 6 | 7 => exact Instr.noConfusion

/-- A block whose byte 0 is not 0 has a mode. -/
theorem exists_lowestSetBit {b : Byte} (h : b ≠ 0) : ∃ m, lowestSetBit b = some m :=
  Option.ne_none_iff_exists'.mp (mt lowestSetBit_eq_none.mp h)

/-- Settles O6: only the last branch of the decoder is the reserved instruction. -/
theorem reservedExactlyWhenByteZero : Obligations.ReservedExactlyWhenByteZero := by
  intro blk
  refine ⟨?onlyZero, fun hzero => ⟨_, decodeBlock_of_reserved hzero⟩⟩
  case onlyZero =>
    rintro ⟨rest, hrest⟩
    by_contra hbyte
    obtain ⟨m, hm⟩ := exists_lowestSetBit hbyte
    exact decodeMode_ne_reserved m blk rest ((decodeBlock_of_mode hm).symm.trans hrest)

end Sys2Proof.Machine
end

section
/-! The layout of a block (30_encoding.md section 2, 42_field_extractor.md R96), said once for every mode: the operands of a mode
in one record, the bit ranges they stand at, and the two round trips between block and instruction. -/

namespace Sys2Proof.Machine

/-! ### Runs of fields -/

theorem fieldsAt_append (blk : Block) (ws vs : List Nat) (p : Nat) :
    fieldsAt blk (ws ++ vs) p = fieldsAt blk ws p ++ fieldsAt blk vs (p + ws.sum) := by
  induction ws generalizing p with
  | nil => rfl
  | cons w ws ih => simp [fieldsAt, ih, Nat.add_assoc]

/-- A run of fields packs to the one field it fills. -/
theorem packFields_fieldsAt (blk : Block) (ws : List Nat) (p : Nat) :
    packFields (ws.zip (fieldsAt blk ws p)) = bitsAt blk p ws.sum := by
  induction ws generalizing p with
  | nil => simp [packFields, bitsAt, Nat.mod_one]
  | cons w ws ih =>
    simp only [fieldsAt, List.zip_cons_cons, packFields, ih, List.sum_cons]
    rw [Nat.mod_eq_of_lt (bitsAt_lt blk p w), bitsAt, bitsAt, bitsAt, Nat.pow_add, Nat.mod_mul, Nat.shiftRight_add,
      Nat.shiftRight_eq_div_pow _ w]

/-- Each value is inside the field of its width. -/
def Fits (ws xs : List Nat) : Prop := List.Forall₂ (fun w x => x < 2 ^ w) ws xs

theorem fits_fieldsAt (blk : Block) (ws : List Nat) (p : Nat) : Fits ws (fieldsAt blk ws p) := by
  induction ws generalizing p with
  | nil => exact .nil
  | cons w ws ih => exact .cons (bitsAt_lt blk p w) (ih _)

theorem Fits.append {ws vs xs ys : List Nat} (h : Fits ws xs) (h' : Fits vs ys) : Fits (ws ++ vs) (xs ++ ys) :=
  List.rel_append h h'

/-- Values that fit their fields are read back from where they are packed. -/
theorem fieldsAt_of_packFields {blk : Block} {ws xs : List Nat} {p : Nat} (hfit : Fits ws xs)
    (h : blk.toNat >>> p = packFields (ws.zip xs)) : fieldsAt blk ws p = xs := by
  induction hfit generalizing p with
  | nil => rfl
  | @cons w x ws xs hx hrest ih =>
    rw [List.zip_cons_cons, packFields, Nat.mod_eq_of_lt hx] at h
    have hhead : bitsAt blk p w = x := by rw [bitsAt, h, Nat.add_mul_mod_self_left, Nat.mod_eq_of_lt hx]
    have htail : blk.toNat >>> (p + w) = packFields (ws.zip xs) := by
      rw [Nat.shiftRight_add, h, Nat.shiftRight_eq_div_pow, Nat.add_mul_div_left _ _ (Nat.two_pow_pos w),
        Nat.div_eq_of_lt hx, Nat.zero_add]
    rw [fieldsAt, hhead, ih htail]

/-- Packed values take no more bits than their fields. -/
theorem packFields_zip_lt {ws xs : List Nat} (hfit : Fits ws xs) : packFields (ws.zip xs) < 2 ^ ws.sum := by
  induction hfit with
  | nil => simp [packFields]
  | @cons w x ws xs hx hrest ih =>
    rw [List.zip_cons_cons, packFields, Nat.mod_eq_of_lt hx, List.sum_cons, Nat.pow_add]
    calc x + 2 ^ w * packFields (ws.zip xs)
      _ < 2 ^ w * 1 + 2 ^ w * packFields (ws.zip xs) := by omega
      _ = 2 ^ w * (packFields (ws.zip xs) + 1) := by ring
      _ ≤ 2 ^ w * 2 ^ ws.sum := Nat.mul_le_mul_left _ ih

theorem fieldsFit_iff {bits n : Nat} {xs : List Nat} :
    fieldsFit bits n xs = true ↔ Fits (List.replicate n bits) xs := by
  simp only [fieldsFit, Bool.and_eq_true, beq_iff_eq, List.all_eq_true, decide_eq_true_eq]
  constructor
  · rintro ⟨rfl, h⟩
    induction xs with
    | nil => exact .nil
    | cons x xs ih => exact .cons (h x (by simp)) (ih fun y hy => h y (by simp [hy]))
  · intro h
    refine ⟨by simpa using h.length_eq.symm, fun x hx => ?_⟩
    obtain ⟨i, hi, rfl⟩ := List.getElem_of_mem hx
    simpa using h.get (i := i) (by rw [h.length_eq]; exact hi) hi

theorem planeFits_iff {ns part w : Nat} {xs : List Nat} :
    planeFits ns part w xs = true ↔ Fits (indexWidths ns part w) xs := by
  simp only [planeFits, Bool.and_eq_true, beq_iff_eq, List.all_eq_true, decide_eq_true_eq, List.mem_range, Fits,
    List.forall₂_iff_get, indexWidths_length, List.get_eq_getElem]
  refine ⟨fun ⟨hl, h⟩ => ⟨hl.symm, fun i hi hi' => ?_⟩, fun ⟨hl, h⟩ => ⟨hl.symm, fun i hi => ?_⟩⟩
  · simpa [indexWidths, List.getD_eq_getElem, hi'] using h i hi
  · simpa [indexWidths, List.getD_eq_getElem, hl ▸ hi] using h i hi (hl ▸ hi)

/-! ### The operands of a mode -/

/-- How many alpha fields a mode has. -/
def alphaCount (d : ModeDescriptor) : Nat := if d.alphaBits > 0 then 2 * d.subsets else 0

/-- How many p-bits a mode stores: one per endpoint, one per subset, or none (42_field_extractor.md R101). -/
def pbitCount (d : ModeDescriptor) : Nat :=
  if d.endpointPbits = 1 then 2 * d.subsets else if d.sharedPbits = 1 then d.subsets else 0

/-- The widths of the secondary index plane, where the mode has one. -/
def secondWidths (d : ModeDescriptor) (part : Nat) : List Nat :=
  if d.index2Bits > 0 then indexWidths d.subsets part d.index2Bits else []

/-- The widths of a mode's fields in wire order (42_field_extractor.md R96), its selector first. -/
def wireWidths (d : ModeDescriptor) (m : Mode) (part : Nat) : List Nat :=
  (m.val + 1) :: d.partitionBits :: d.rotationBits :: d.indexSelectionBits
    :: (List.replicate (2 * d.subsets) d.colorBits ++ (List.replicate (2 * d.subsets) d.colorBits
    ++ (List.replicate (2 * d.subsets) d.colorBits ++ (List.replicate (alphaCount d) d.alphaBits
    ++ (List.replicate (pbitCount d) 1 ++ (indexWidths d.subsets part d.indexBits ++ secondWidths d part))))))

/-- The operands in wire order, after the selector of the mode. The record is that of the raw field set, its lists as long as
the mode stores them. -/
def wireValues (m : Mode) (o : RawFields) : List Nat :=
  2 ^ m.val :: o.part :: o.rot :: o.isb :: (o.r ++ (o.g ++ (o.b ++ (o.a ++ (o.p ++ (o.idx1 ++ o.idx2))))))

/-- The block instruction of a mode with the given operands; an operand the mode lacks is not used. -/
def modeInstr (m : Mode) (o : RawFields) : Instr :=
  match m with
  | 0 => .bc7m0 o.part o.r o.g o.b o.p o.idx1
  | 1 => .bc7m1 o.part o.r o.g o.b o.p o.idx1
  | 2 => .bc7m2 o.part o.r o.g o.b o.idx1
  | 3 => .bc7m3 o.part o.r o.g o.b o.p o.idx1
  | 4 => .bc7m4 o.rot o.isb o.r o.g o.b o.a o.idx1 o.idx2
  | 5 => .bc7m5 o.rot o.r o.g o.b o.a o.idx1 o.idx2
  | 6 => .bc7m6 o.r o.g o.b o.a o.p o.idx1
  | 7 => .bc7m7 o.part o.r o.g o.b o.a o.p o.idx1

/-- Every operand is present and inside its field, and 0 or empty where the mode has none. -/
structure OperandsFit (d : ModeDescriptor) (o : RawFields) : Prop where
  part : o.part < 2 ^ d.partitionBits
  rot : o.rot < 2 ^ d.rotationBits
  isb : o.isb < 2 ^ d.indexSelectionBits
  r : Fits (List.replicate (2 * d.subsets) d.colorBits) o.r
  g : Fits (List.replicate (2 * d.subsets) d.colorBits) o.g
  b : Fits (List.replicate (2 * d.subsets) d.colorBits) o.b
  a : Fits (List.replicate (alphaCount d) d.alphaBits) o.a
  p : Fits (List.replicate (pbitCount d) 1) o.p
  idx1 : Fits (indexWidths d.subsets o.part d.indexBits) o.idx1
  idx2 : Fits (secondWidths d o.part) o.idx2

/-- The operands fit their fields one by one. -/
theorem OperandsFit.wire {d : ModeDescriptor} {o : RawFields} (h : OperandsFit d o) (m : Mode) :
    Fits (wireWidths d m o.part) (wireValues m o) :=
  .cons (Nat.pow_lt_pow_right (by decide) (Nat.lt_succ_self _)) <| .cons h.part <| .cons h.rot <| .cons h.isb <|
    h.r.append <| h.g.append <| h.b.append <| h.a.append <| h.p.append <| h.idx1.append h.idx2

/-- Where the fields of the first channel start. -/
def redPos (d : ModeDescriptor) (m : Mode) : Nat :=
  m.val + 1 + d.partitionBits + d.rotationBits + d.indexSelectionBits

def greenPos (d : ModeDescriptor) (m : Mode) : Nat := redPos d m + 2 * d.subsets * d.colorBits

def bluePos (d : ModeDescriptor) (m : Mode) : Nat := greenPos d m + 2 * d.subsets * d.colorBits

def alphaPos (d : ModeDescriptor) (m : Mode) : Nat := bluePos d m + 2 * d.subsets * d.colorBits

def pbitPos (d : ModeDescriptor) (m : Mode) : Nat := alphaPos d m + alphaCount d * d.alphaBits

def planePos (d : ModeDescriptor) (m : Mode) : Nat := pbitPos d m + pbitCount d

/-- Where the secondary plane starts: an anchor's field is one bit short (30_encoding.md R66). -/
def secondPos (d : ModeDescriptor) (m : Mode) : Nat := planePos d m + (16 * d.indexBits - d.subsets)

/-- The operands at the bit ranges of a mode descriptor. -/
def operandsAt (blk : Block) (d : ModeDescriptor) (m : Mode) : RawFields where
  part := bitsAt blk (m.val + 1) d.partitionBits
  rot := bitsAt blk (m.val + 1 + d.partitionBits) d.rotationBits
  isb := bitsAt blk (m.val + 1 + d.partitionBits + d.rotationBits) d.indexSelectionBits
  r := fieldsAt blk (List.replicate (2 * d.subsets) d.colorBits) (redPos d m)
  g := fieldsAt blk (List.replicate (2 * d.subsets) d.colorBits) (greenPos d m)
  b := fieldsAt blk (List.replicate (2 * d.subsets) d.colorBits) (bluePos d m)
  a := fieldsAt blk (List.replicate (alphaCount d) d.alphaBits) (alphaPos d m)
  p := fieldsAt blk (List.replicate (pbitCount d) 1) (pbitPos d m)
  idx1 := planeAt blk d.subsets (bitsAt blk (m.val + 1) d.partitionBits) d.indexBits (planePos d m)
  idx2 := fieldsAt blk (secondWidths d (bitsAt blk (m.val + 1) d.partitionBits)) (secondPos d m)

/-- The bit ranges of 30_encoding.md R58 to R65 are those of the mode table. -/
theorem decodeMode_eq (m : Mode) (blk : Block) : decodeMode m blk = modeInstr m (operandsAt blk (modeTable m) m) := by
  match m with | 0 | 1 | 2 | 3 | 4 | 5 | 6 | 7 => rfl

theorem operandsFit_operandsAt (blk : Block) (d : ModeDescriptor) (m : Mode) : OperandsFit d (operandsAt blk d m) where
  part := bitsAt_lt ..
  rot := bitsAt_lt ..
  isb := bitsAt_lt ..
  r := fits_fieldsAt ..
  g := fits_fieldsAt ..
  b := fits_fieldsAt ..
  a := fits_fieldsAt ..
  p := fits_fieldsAt ..
  idx1 := fits_fieldsAt ..
  idx2 := fits_fieldsAt ..

/-! ### Facts about the mode table -/

theorem modeTable_subsets (m : Mode) :
    (modeTable m).subsets = 1 ∨ (modeTable m).subsets = 2 ∨ (modeTable m).subsets = 3 := by revert m; decide

theorem modeTable_indexBits (m : Mode) :
    (modeTable m).indexBits = 2 ∨ (modeTable m).indexBits = 3 ∨ (modeTable m).indexBits = 4 := by revert m; decide

theorem modeTable_partitionBits (m : Mode) : (modeTable m).partitionBits ≤ 6 := by revert m; decide

theorem modeTable_index2Bits (m : Mode) :
    (modeTable m).index2Bits = 0 ∨ (modeTable m).index2Bits = 2 ∨ (modeTable m).index2Bits = 3 := by revert m; decide

/-- A partition index is below 64 in every mode. -/
theorem part_lt_64 {m : Mode} {part : Nat} (h : part < 2 ^ (modeTable m).partitionBits) : part < 64 :=
  have hbits : (modeTable m).partitionBits ≤ 6 := modeTable_partitionBits m
  h.trans_le (Nat.pow_le_pow_right (by decide) hbits)

theorem indexWidths_modeTable_sum {m : Mode} {part : Nat} (h : part < 2 ^ (modeTable m).partitionBits) :
    (indexWidths (modeTable m).subsets part (modeTable m).indexBits).sum =
      16 * (modeTable m).indexBits - (modeTable m).subsets :=
  Laws.indexWidths_sum _ _ _ (modeTable_subsets m) (part_lt_64 h) (modeTable_indexBits m)

theorem secondWidths_modeTable_sum {m : Mode} {part : Nat} (h : part < 2 ^ (modeTable m).partitionBits) :
    (secondWidths (modeTable m) part).sum =
      if (modeTable m).index2Bits > 0 then 16 * (modeTable m).index2Bits - (modeTable m).subsets else 0 := by
  unfold secondWidths
  split_ifs with hplane
  · have hbits := modeTable_index2Bits m
    exact Laws.indexWidths_sum _ _ _ (modeTable_subsets m) (part_lt_64 h) (by omega)
  · rfl

/-- Settles O7: the eight sums, one by one. -/
theorem modeFieldsFillTheBlock : Obligations.ModeFieldsFillTheBlock := by
  unfold Obligations.ModeFieldsFillTheBlock
  decide

/-- The fields of a mode, up to its secondary plane and with it, end at bit 128 (41_lookup_tables.md R85). -/
theorem secondPos_add_sum {m : Mode} {part : Nat} (h : part < 2 ^ (modeTable m).partitionBits) :
    secondPos (modeTable m) m + (secondWidths (modeTable m) part).sum = 128 := by
  rw [secondWidths_modeTable_sum h]
  clear h
  revert m
  decide

theorem wireWidths_sum {m : Mode} {part : Nat} (h : part < 2 ^ (modeTable m).partitionBits) :
    (wireWidths (modeTable m) m part).sum = 128 := by
  have hend := secondPos_add_sum h
  simp only [secondPos, planePos, pbitPos, alphaPos, bluePos, greenPos, redPos] at hend
  simp only [wireWidths, List.sum_cons, List.sum_append, List.sum_replicate, smul_eq_mul, indexWidths_modeTable_sum h]
  omega

/-! ### Operands a mode lacks -/

section Absent
variable {d : ModeDescriptor} {o : RawFields} (h : OperandsFit d o)
include h

theorem OperandsFit.part_eq_zero (hd : d.partitionBits = 0) : o.part = 0 := by simpa [hd] using h.part

theorem OperandsFit.rot_eq_zero (hd : d.rotationBits = 0) : o.rot = 0 := by simpa [hd] using h.rot

theorem OperandsFit.isb_eq_zero (hd : d.indexSelectionBits = 0) : o.isb = 0 := by simpa [hd] using h.isb

theorem OperandsFit.a_eq_nil (hd : d.alphaBits = 0) : o.a = [] := by simpa [alphaCount, hd, Fits] using h.a

theorem OperandsFit.p_eq_nil (hd : pbitCount d = 0) : o.p = [] := by simpa [hd, Fits] using h.p

theorem OperandsFit.idx2_eq_nil (hd : d.index2Bits = 0) : o.idx2 = [] := by simpa [secondWidths, hd, Fits] using h.idx2

end Absent

/-! ### Encoding in wire order -/

theorem Fits.zip_append {ws vs xs ys : List Nat} (h : Fits ws xs) :
    (ws ++ vs).zip (xs ++ ys) = ws.zip xs ++ vs.zip ys := List.zip_append h.length_eq

theorem Fits.zip_replicate {n w : Nat} {xs : List Nat} (h : Fits (List.replicate n w) xs) :
    (List.replicate n w).zip xs = fieldsOf w xs := by
  obtain rfl : n = xs.length := by simpa using h.length_eq
  clear h
  induction xs with
  | nil => rfl
  | cons x xs ih => simp [List.replicate_succ, ih, fieldsOf]

/-- The encoder writes the operands in wire order; a field of no bits adds nothing. -/
theorem packFields_wireFields {m : Mode} {o : RawFields} (h : OperandsFit (modeTable m) o) :
    packFields (wireFields (modeInstr m o)) = packFields ((wireWidths (modeTable m) m o.part).zip (wireValues m o)) := by
  simp only [wireWidths, wireValues, List.zip_cons_cons, h.r.zip_append, h.g.zip_append, h.b.zip_append, h.a.zip_append,
    h.p.zip_append, h.idx1.zip_append, h.r.zip_replicate, h.g.zip_replicate, h.b.zip_replicate, h.a.zip_replicate,
    h.p.zip_replicate]
  match m with
  | 0 | 1 | 3 =>
    simp [modeInstr, wireFields, selector, packFields, planeFields, fieldsOf, modeTable, Nat.mod_one, h.a_eq_nil rfl,
      h.idx2_eq_nil rfl]
  | 2 =>
    simp [modeInstr, wireFields, selector, packFields, planeFields, fieldsOf, modeTable, Nat.mod_one, h.a_eq_nil rfl,
      h.p_eq_nil rfl, h.idx2_eq_nil rfl]
  | 4 | 5 =>
    simp [modeInstr, wireFields, selector, packFields, planeFields, fieldsOf, modeTable, Nat.mod_one, h.part_eq_zero rfl,
      h.p_eq_nil rfl, secondWidths]
  | 6 =>
    simp [modeInstr, wireFields, selector, packFields, planeFields, fieldsOf, modeTable, Nat.mod_one, h.part_eq_zero rfl,
      h.idx2_eq_nil rfl]
  | 7 =>
    simp [modeInstr, wireFields, selector, packFields, planeFields, fieldsOf, modeTable, Nat.mod_one, h.idx2_eq_nil rfl]

/-- Operands that fit make a well-formed instruction. -/
theorem wellFormed_modeInstr {m : Mode} {o : RawFields} (h : OperandsFit (modeTable m) o) :
    (modeInstr m o).wellFormed = true := by
  have hr := fieldsFit_iff.mpr h.r
  have hg := fieldsFit_iff.mpr h.g
  have hb := fieldsFit_iff.mpr h.b
  have ha := fieldsFit_iff.mpr h.a
  have hp := fieldsFit_iff.mpr h.p
  have hidx := planeFits_iff.mpr h.idx1
  match m with
  | 0 | 1 | 3 =>
    simp only [modeInstr, Instr.wellFormed, Bool.and_eq_true, decide_eq_true_eq]
    exact ⟨⟨⟨⟨⟨h.part, hr⟩, hg⟩, hb⟩, hp⟩, hidx⟩
  | 2 =>
    simp only [modeInstr, Instr.wellFormed, Bool.and_eq_true, decide_eq_true_eq]
    exact ⟨⟨⟨⟨h.part, hr⟩, hg⟩, hb⟩, hidx⟩
  | 4 =>
    have hidx2 : planeFits 1 o.part 3 o.idx2 = true := planeFits_iff.mpr h.idx2
    rw [h.part_eq_zero rfl] at hidx hidx2
    simp only [modeInstr, Instr.wellFormed, Bool.and_eq_true, decide_eq_true_eq]
    exact ⟨⟨⟨⟨⟨⟨⟨h.rot, h.isb⟩, hr⟩, hg⟩, hb⟩, ha⟩, hidx⟩, hidx2⟩
  | 5 =>
    have hidx2 : planeFits 1 o.part 2 o.idx2 = true := planeFits_iff.mpr h.idx2
    rw [h.part_eq_zero rfl] at hidx hidx2
    simp only [modeInstr, Instr.wellFormed, Bool.and_eq_true, decide_eq_true_eq]
    exact ⟨⟨⟨⟨⟨⟨h.rot, hr⟩, hg⟩, hb⟩, ha⟩, hidx⟩, hidx2⟩
  | 6 =>
    rw [h.part_eq_zero rfl] at hidx
    simp only [modeInstr, Instr.wellFormed, Bool.and_eq_true]
    exact ⟨⟨⟨⟨⟨hr, hg⟩, hb⟩, ha⟩, hp⟩, hidx⟩
  | 7 =>
    simp only [modeInstr, Instr.wellFormed, Bool.and_eq_true, decide_eq_true_eq]
    exact ⟨⟨⟨⟨⟨⟨h.part, hr⟩, hg⟩, hb⟩, ha⟩, hp⟩, hidx⟩

/-- The eight modes and the reserved block are all the well-formed instructions of a block. -/
theorem exists_modeInstr {i : Instr} (hlen : encodedLength i = 16) (h : i.wellFormed = true) :
    (∃ rest, i = .bc7Reserved rest) ∨ ∃ m o, i = modeInstr m o ∧ OperandsFit (modeTable m) o := by
  cases i <;> simp only [Instr.wellFormed, Bool.and_eq_true, decide_eq_true_eq] at h
  case bc7m0 part r g b p idx =>
    obtain ⟨⟨⟨⟨⟨hpart, hr⟩, hg⟩, hb⟩, hp⟩, hidx⟩ := h
    exact .inr ⟨0, ⟨part, 0, 0, r, g, b, [], p, idx, []⟩, rfl, hpart, Nat.zero_lt_one, Nat.zero_lt_one, fieldsFit_iff.mp hr,
      fieldsFit_iff.mp hg, fieldsFit_iff.mp hb, .nil, fieldsFit_iff.mp hp, planeFits_iff.mp hidx, .nil⟩
  case bc7m1 part r g b p idx =>
    obtain ⟨⟨⟨⟨⟨hpart, hr⟩, hg⟩, hb⟩, hp⟩, hidx⟩ := h
    exact .inr ⟨1, ⟨part, 0, 0, r, g, b, [], p, idx, []⟩, rfl, hpart, Nat.zero_lt_one, Nat.zero_lt_one, fieldsFit_iff.mp hr,
      fieldsFit_iff.mp hg, fieldsFit_iff.mp hb, .nil, fieldsFit_iff.mp hp, planeFits_iff.mp hidx, .nil⟩
  case bc7m2 part r g b idx =>
    obtain ⟨⟨⟨⟨hpart, hr⟩, hg⟩, hb⟩, hidx⟩ := h
    exact .inr ⟨2, ⟨part, 0, 0, r, g, b, [], [], idx, []⟩, rfl, hpart, Nat.zero_lt_one, Nat.zero_lt_one,
      fieldsFit_iff.mp hr, fieldsFit_iff.mp hg, fieldsFit_iff.mp hb, .nil, .nil, planeFits_iff.mp hidx, .nil⟩
  case bc7m3 part r g b p idx =>
    obtain ⟨⟨⟨⟨⟨hpart, hr⟩, hg⟩, hb⟩, hp⟩, hidx⟩ := h
    exact .inr ⟨3, ⟨part, 0, 0, r, g, b, [], p, idx, []⟩, rfl, hpart, Nat.zero_lt_one, Nat.zero_lt_one, fieldsFit_iff.mp hr,
      fieldsFit_iff.mp hg, fieldsFit_iff.mp hb, .nil, fieldsFit_iff.mp hp, planeFits_iff.mp hidx, .nil⟩
  case bc7m4 rot isb r g b a idx idx2 =>
    obtain ⟨⟨⟨⟨⟨⟨⟨hrot, hisb⟩, hr⟩, hg⟩, hb⟩, ha⟩, hidx⟩, hidx2⟩ := h
    exact .inr ⟨4, ⟨0, rot, isb, r, g, b, a, [], idx, idx2⟩, rfl, Nat.zero_lt_one, hrot, hisb, fieldsFit_iff.mp hr,
      fieldsFit_iff.mp hg, fieldsFit_iff.mp hb, fieldsFit_iff.mp ha, .nil, planeFits_iff.mp hidx, planeFits_iff.mp hidx2⟩
  case bc7m5 rot r g b a idx idx2 =>
    obtain ⟨⟨⟨⟨⟨⟨hrot, hr⟩, hg⟩, hb⟩, ha⟩, hidx⟩, hidx2⟩ := h
    exact .inr ⟨5, ⟨0, rot, 0, r, g, b, a, [], idx, idx2⟩, rfl, Nat.zero_lt_one, hrot, Nat.zero_lt_one, fieldsFit_iff.mp hr,
      fieldsFit_iff.mp hg, fieldsFit_iff.mp hb, fieldsFit_iff.mp ha, .nil, planeFits_iff.mp hidx, planeFits_iff.mp hidx2⟩
  case bc7m6 r g b a p idx =>
    obtain ⟨⟨⟨⟨⟨hr, hg⟩, hb⟩, ha⟩, hp⟩, hidx⟩ := h
    exact .inr ⟨6, ⟨0, 0, 0, r, g, b, a, p, idx, []⟩, rfl, Nat.zero_lt_one, Nat.zero_lt_one, Nat.zero_lt_one,
      fieldsFit_iff.mp hr, fieldsFit_iff.mp hg, fieldsFit_iff.mp hb, fieldsFit_iff.mp ha, fieldsFit_iff.mp hp,
      planeFits_iff.mp hidx, .nil⟩
  case bc7m7 part r g b a p idx =>
    obtain ⟨⟨⟨⟨⟨⟨hpart, hr⟩, hg⟩, hb⟩, ha⟩, hp⟩, hidx⟩ := h
    exact .inr ⟨7, ⟨part, 0, 0, r, g, b, a, p, idx, []⟩, rfl, hpart, Nat.zero_lt_one, Nat.zero_lt_one, fieldsFit_iff.mp hr,
      fieldsFit_iff.mp hg, fieldsFit_iff.mp hb, fieldsFit_iff.mp ha, fieldsFit_iff.mp hp, planeFits_iff.mp hidx, .nil⟩
  case bc7Reserved rest => exact .inl ⟨rest, rfl⟩
  case nop | decode | modeq | cmdReserved => cases hlen

/-! ### From a block to its instruction and back -/

/-- Reading a block in wire order gives the selector field and then the operands. -/
theorem fieldsAt_wireWidths (blk : Block) {m : Mode} {part : Nat}
    (hpart : part = (operandsAt blk (modeTable m) m).part) (hsel : bitsAt blk 0 (m.val + 1) = 2 ^ m.val) :
    fieldsAt blk (wireWidths (modeTable m) m part) 0 = wireValues m (operandsAt blk (modeTable m) m) := by
  subst hpart
  simp only [wireWidths, wireValues, operandsAt, fieldsAt, fieldsAt_append, List.sum_replicate, smul_eq_mul, Nat.mul_one,
    indexWidths_modeTable_sum (bitsAt_lt ..), hsel, Nat.zero_add, planeAt, redPos, greenPos, bluePos, alphaPos, pbitPos,
    planePos, secondPos]

/-- Encoding the instruction read from a block of mode `m` gives the block. -/
theorem encodeBlock_decodeMode {blk : Block} {m : Mode} (h : lowestSetBit (byte0 blk) = some m) :
    encodeBlock (decodeMode m blk) = blk := by
  have hsel : bitsAt blk 0 (m.val + 1) = 2 ^ m.val :=
    (matchesMode_iff_selector blk m).mp ((matchesMode_iff_lowestSetBit blk m).mpr h)
  have hfit := operandsFit_operandsAt blk (modeTable m) m
  have hpack : packFields (wireFields (decodeMode m blk)) = blk.toNat := by
    calc packFields (wireFields (decodeMode m blk))
      _ = packFields (wireFields (modeInstr m (operandsAt blk (modeTable m) m))) := by rw [decodeMode_eq]
      _ = bitsAt blk 0 128 := by
        rw [packFields_wireFields hfit, ← fieldsAt_wireWidths blk rfl hsel, packFields_fieldsAt, wireWidths_sum hfit.part]
      _ = blk.toNat := Nat.mod_eq_of_lt blk.isLt
  rw [encodeBlock, hpack, BitVec.ofNat_toNat, BitVec.setWidth_eq]

/-- Encoding the reserved instruction read from a block gives the block. -/
theorem encodeBlock_reservedInstr {blk : Block} (h : byte0 blk = 0) : encodeBlock (reservedInstr blk) = blk := by
  have hbyte : blk.toNat % 2 ^ 8 = 0 := by simpa [byte0] using congrArg BitVec.toNat h
  have hlt := blk.isLt
  refine BitVec.eq_of_toNat_eq ?_
  simp only [encodeBlock, reservedInstr, wireFields, packFields, field, bitsAt, BitVec.toNat_ofNat,
    Nat.shiftRight_eq_div_pow]
  omega

/-- Settles O4: the fields of a block, read in wire order and packed again, are the block. -/
theorem encodeDecodeEveryBlock : Obligations.EncodeDecodeEveryBlock := by
  intro blk
  by_cases hbyte : byte0 blk = 0
  · rw [decodeBlock_of_reserved hbyte]
    exact ⟨rfl, encodeBlock_reservedInstr hbyte⟩
  · obtain ⟨m, hm⟩ := exists_lowestSetBit hbyte
    rw [decodeBlock_of_mode hm]
    refine ⟨?_, encodeBlock_decodeMode hm⟩
    rw [decodeMode_eq]
    exact wellFormed_modeInstr (operandsFit_operandsAt blk (modeTable m) m)

/-! ### From an instruction to its block and back -/

/-- The block of a mode's instruction is its operands packed in wire order. -/
theorem toNat_encodeBlock_modeInstr {m : Mode} {o : RawFields} (h : OperandsFit (modeTable m) o) :
    (encodeBlock (modeInstr m o)).toNat = packFields ((wireWidths (modeTable m) m o.part).zip (wireValues m o)) := by
  have hlt := packFields_zip_lt (h.wire m)
  rw [wireWidths_sum h.part] at hlt
  rw [encodeBlock, packFields_wireFields h, BitVec.toNat_ofNat, Nat.mod_eq_of_lt hlt]

/-- Operands that fit are told apart by their values in wire order. -/
theorem wireValues_injective {d : ModeDescriptor} {m : Mode} {o o' : RawFields} (h : OperandsFit d o) (h' : OperandsFit d o')
    (heq : wireValues m o = wireValues m o') : o = o' := by
  have hlen {ws xs ys : List Nat} (hx : Fits ws xs) (hy : Fits ws ys) : xs.length = ys.length :=
    hx.length_eq.symm.trans hy.length_eq
  obtain ⟨part, rot, isb, r, g, b, a, p, idx1, idx2⟩ := o
  obtain ⟨part', rot', isb', r', g', b', a', p', idx1', idx2'⟩ := o'
  simp only [wireValues, List.cons.injEq, true_and] at heq
  obtain ⟨rfl, rfl, rfl, hlists⟩ := heq
  obtain ⟨rfl, hfromG⟩ := List.append_inj hlists (hlen h.r h'.r)
  obtain ⟨rfl, hfromB⟩ := List.append_inj hfromG (hlen h.g h'.g)
  obtain ⟨rfl, hfromA⟩ := List.append_inj hfromB (hlen h.b h'.b)
  obtain ⟨rfl, hfromP⟩ := List.append_inj hfromA (hlen h.a h'.a)
  obtain ⟨rfl, hplanes⟩ := List.append_inj hfromP (hlen h.p h'.p)
  obtain ⟨rfl, rfl⟩ := List.append_inj hplanes (hlen h.idx1 h'.idx1)
  rfl

/-- The selector and the operands read from the block of a mode's instruction are those encoded. -/
theorem read_encodeBlock_modeInstr {m : Mode} {o : RawFields} (h : OperandsFit (modeTable m) o) :
    bitsAt (encodeBlock (modeInstr m o)) 0 (m.val + 1) = 2 ^ m.val
      ∧ operandsAt (encodeBlock (modeInstr m o)) (modeTable m) m = o := by
  have hread : fieldsAt (encodeBlock (modeInstr m o)) (wireWidths (modeTable m) m o.part) 0 = wireValues m o :=
    fieldsAt_of_packFields (h.wire m) (toNat_encodeBlock_modeInstr h)
  have hheads := hread
  simp only [wireWidths, wireValues, fieldsAt, List.cons.injEq, Nat.zero_add] at hheads
  obtain ⟨hsel, hpart, -⟩ := hheads
  rw [fieldsAt_wireWidths _ hpart.symm hsel] at hread
  exact ⟨hsel, wireValues_injective (operandsFit_operandsAt _ _ _) h hread⟩

theorem lowestSetBit_encodeBlock_modeInstr {m : Mode} {o : RawFields} (h : OperandsFit (modeTable m) o) :
    lowestSetBit (byte0 (encodeBlock (modeInstr m o))) = some m :=
  (matchesMode_iff_lowestSetBit _ m).mp ((matchesMode_iff_selector _ m).mpr (read_encodeBlock_modeInstr h).1)

theorem decodeBlock_encodeBlock_modeInstr {m : Mode} {o : RawFields} (h : OperandsFit (modeTable m) o) :
    decodeBlock (encodeBlock (modeInstr m o)) = modeInstr m o := by
  rw [decodeBlock_of_mode (lowestSetBit_encodeBlock_modeInstr h), decodeMode_eq, (read_encodeBlock_modeInstr h).2]

theorem decodeBlock_encodeBlock_bc7Reserved (rest : BitVec 120) :
    decodeBlock (encodeBlock (.bc7Reserved rest)) = .bc7Reserved rest := by
  have hlt := rest.isLt
  have hvalue : (encodeBlock (.bc7Reserved rest)).toNat = 2 ^ 8 * rest.toNat := by
    simp only [encodeBlock, wireFields, packFields, BitVec.toNat_ofNat]
    omega
  have hbyte : byte0 (encodeBlock (.bc7Reserved rest)) = 0 := by
    refine BitVec.eq_of_toNat_eq ?_
    simp [byte0, hvalue]
  rw [decodeBlock_of_reserved hbyte, reservedInstr, field, bitsAt, hvalue]
  congr 1
  refine BitVec.eq_of_toNat_eq ?_
  simp only [BitVec.toNat_ofNat, Nat.shiftRight_eq_div_pow]
  omega

/-- Every well-formed instruction of a block is read back from its block. -/
theorem decodeBlock_encodeBlock {i : Instr} (hlen : encodedLength i = 16) (h : i.wellFormed = true) :
    decodeBlock (encodeBlock i) = i := by
  obtain ⟨rest, rfl⟩ | ⟨m, o, rfl, hfit⟩ := exists_modeInstr hlen h
  · exact decodeBlock_encodeBlock_bc7Reserved rest
  · exact decodeBlock_encodeBlock_modeInstr hfit

/-- Bytes put together again are the value they were taken from, as far as they reach. -/
theorem natOfBytes_bytesOfNat (n v : Nat) : natOfBytes (bytesOfNat n v) = v % 256 ^ n := by
  induction n generalizing v with
  | zero => simp [bytesOfNat, natOfBytes, Nat.mod_one]
  | succ n ih => rw [bytesOfNat, natOfBytes, ih, BitVec.toNat_ofNat, Nat.pow_succ' (m := 256), Nat.mod_mul (a := 256)]

/-- The bytes of a block instruction decode as its block does. -/
theorem decodeBytes_encode_block {i : Instr} (h : encodedLength i = 16) :
    decodeBytes (encode i) = .ok (decodeBlock (encodeBlock i)) := by
  have hblock : BitVec.ofNat 128 (natOfBytes (encode i)) = encodeBlock i := by
    rw [encode, h, natOfBytes_bytesOfNat]
    exact BitVec.eq_of_toNat_eq (by simp [encodeBlock])
  rw [decodeBytes, if_pos (by rw [encode, h, bytesOfNat_length]), hblock]

/-- Settles O3: a block is read back field by field, a command word by its value. -/
theorem decodeEncodeRoundTrip : Obligations.DecodeEncodeRoundTrip := by
  intro i h
  cases hi : i with
  | nop | decode | modeq | cmdReserved => rfl
  | _ =>
    subst hi
    rw [decodeBytes_encode_block rfl, decodeBlock_encodeBlock rfl h]

end Sys2Proof.Machine
end

section
/-! Command words (30_encoding.md R72), and words written out from the spec. -/

namespace Sys2Proof.Machine

/-- A word whose bits 31:2 are 0 is its two low bits. -/
theorem eq_setWidth_of_highBits_zero {w : Word} (h : w.extractLsb' 2 30 = 0) : w = (w.extractLsb' 0 2).setWidth 32 := by
  have hhigh : w.toNat / 2 ^ 2 % 2 ^ 30 = 0 := by
    simpa [BitVec.extractLsb'_toNat, Nat.shiftRight_eq_div_pow] using congrArg BitVec.toNat h
  have hw := w.isLt
  refine BitVec.eq_of_toNat_eq ?_
  simp only [BitVec.toNat_setWidth, BitVec.extractLsb'_toNat, Nat.shiftRight_zero]
  omega

/-- Settles O2: without high bits a word is one of four, and with them it is none of the four. -/
theorem commandWordIsOpInLowBits : Obligations.CommandWordIsOpInLowBits := by
  intro w
  refine ⟨?fourWords, decodeCommand_highBits⟩
  case fourWords =>
    intro hhigh
    rw [eq_setWidth_of_highBits_zero hhigh]
    generalize w.extractLsb' 0 2 = op
    revert op
    decide

/-- Settles O1: the decoder evaluated on each record. -/
theorem writtenWordsDecode : Obligations.WrittenWordsDecode := by
  unfold Obligations.WrittenWordsDecode
  decide +kernel

end Sys2Proof.Machine
end

section
/-! The ROMs of 41_lookup_tables.md: the partition, anchor and weight tables, checked entry by entry. -/

namespace Sys2Proof.Machine

/-- Settles O8: each of the 64 rows of the two partition tables, with its anchors. -/
theorem anchorsLieInTheirSubsets : Obligations.AnchorsLieInTheirSubsets := by
  unfold Obligations.AnchorsLieInTheirSubsets
  decide +kernel

/-- Settles O9: each entry of the three weight tables. -/
theorem weightsAreRoundedLinear : Obligations.WeightsAreRoundedLinear := by
  rintro w (rfl | rfl | rfl)
  case inl => decide
  case inr.inl => decide
  case inr.inr => decide

/-- A subset id is below the number of subsets (41_lookup_tables.md R86). -/
theorem partition_lt_subsets {m : Mode} {part i : Nat} (hpart : part < 2 ^ (modeTable m).partitionBits) (hi : i < 16) :
    partition (modeTable m).subsets part i < (modeTable m).subsets := by
  have hrow := anchorsLieInTheirSubsets part (part_lt_64 hpart)
  obtain ⟨h2, h3⟩ : partition 2 part i < 2 ∧ partition 3 part i < 3 := by
    obtain ⟨-, -, -, -, -, -, -, -, -, -, -, -, hids⟩ := hrow
    exact hids i hi
  obtain hns | hns | hns := modeTable_subsets m <;> rw [hns]
  · exact Nat.zero_lt_one
  · exact h2
  · exact h3

end Sys2Proof.Machine
end

section
/-! Runs of reads (40_bit_reader.md R80, R81) and the Field Extractor (42_field_extractor.md): what it reads is the operands at
the bit ranges of the mode. -/

namespace Sys2Proof.Machine

/-! ### Failed and successful reads -/

/-- A read that fails only sets ERR. -/
theorem readBits_eq_bitBudget {blk : Block} {n : Nat} {r r' : Reader} (h : readBits blk n r = .bitBudget r') :
    r' = { r with err := true } := by
  by_cases hfail : r.err = true ∨ r.budget < n
  · rw [readBits_fails blk hfail] at h
    exact (ReadResult.bitBudget.inj h).symm
  · rw [not_or, Bool.not_eq_true, Nat.not_lt] at hfail
    rw [readBits_succeeds blk hfail.1 hfail.2] at h
    cases h

/-- Settles O12: the reader a failed read leaves has ERR set, and fails every read. -/
theorem failedReadIsSticky : Obligations.FailedReadIsSticky := by
  intro blk n r r' h
  obtain rfl := readBits_eq_bitBudget h
  exact ⟨rfl, rfl, fun n' => readBits_fails blk (.inl rfl)⟩

/-- Reads that succeed one after the other fit the budget together. -/
theorem sum_le_budget {blk : Block} {widths vs : List Nat} {r r' : Reader} (herr : r.err = false)
    (h : readMany blk widths r = .value vs r') : widths.sum ≤ r.budget := by
  induction widths generalizing vs r r' with
  | nil => exact Nat.zero_le _
  | cons w ws ih =>
    rw [readMany] at h
    by_cases hw : r.budget < w
    · rw [readBits_fails blk (.inr hw)] at h
      cases h
    · rw [readBits_succeeds blk herr (Nat.not_lt.mp hw), bind_value] at h
      cases hrest : readMany blk ws ⟨r.pos + w, r.budget - w, false⟩ with
      | bitBudget r'' => rw [hrest] at h; cases h
      | value vs' r'' =>
        have hle : ws.sum ≤ r.budget - w := ih rfl hrest
        rw [List.sum_cons]
        omega

/-- Field `k` of a run stands past the fields before it. -/
theorem fieldsAt_getD (blk : Block) (ws : List Nat) (p k : Nat) :
    (fieldsAt blk ws p).getD k 0 = bitsAt blk (p + (ws.take k).sum) (ws.getD k 0) := by
  induction ws generalizing p k with
  | nil => simp [fieldsAt, bitsAt, Nat.mod_one]
  | cons w ws ih =>
    cases k with
    | zero => rfl
    | succ k => simpa [fieldsAt, Nat.add_assoc] using ih (p + w) k

/-- Settles O11: reads that succeed fit the budget, so they are the run of fields at the position. -/
theorem readsTakeConsecutiveRanges : Obligations.ReadsTakeConsecutiveRanges := by
  intro blk widths r r' vs herr hsum h
  have hfit := sum_le_budget herr h
  obtain ⟨pos, budget, err⟩ := r
  obtain rfl : err = false := herr
  rw [readMany_ok blk widths pos budget hfit] at h
  obtain ⟨rfl, rfl⟩ := ReadResult.value.inj h
  refine ⟨rfl, ?total, rfl, fieldsAt_length blk widths pos, ?bits⟩
  case total =>
    simp only at hsum hfit ⊢
    omega
  case bits =>
    intro k _ j hj
    rw [fieldsAt_getD, testBit_bitsAt, decide_eq_true hj, Bool.true_and]

/-! ### The extractor's reads, from a reader at a bit position -/

/-- The reader of a command at bit `p`, with nothing failed: POS + BUDGET is 128 (40_bit_reader.md R81). -/
def readerAt (p : Nat) : Reader := ⟨p, 128 - p, false⟩

theorem readBits_readerAt (blk : Block) {n p : Nat} (h : p + n ≤ 128) :
    readBits blk n (readerAt p) = .value (bitsAt blk p n) (readerAt (p + n)) := by
  rw [readerAt, readBits_ok blk n p (128 - p) (by omega), readerAt, Nat.sub_sub]

theorem readMany_readerAt (blk : Block) {ws : List Nat} {p : Nat} (h : p + ws.sum ≤ 128) :
    readMany blk ws (readerAt p) = .value (fieldsAt blk ws p) (readerAt (p + ws.sum)) := by
  rw [readerAt, readMany_ok blk ws p (128 - p) (by omega), readerAt, Nat.sub_sub]

theorem readChannel_readerAt (blk : Block) {ns bits p : Nat} (h : p + 2 * ns * bits ≤ 128) :
    readChannel blk ns bits (readerAt p) =
      .value (fieldsAt blk (List.replicate (2 * ns) bits) p) (readerAt (p + 2 * ns * bits)) := by
  have hsum : (List.replicate (2 * ns) bits).sum = 2 * ns * bits := by simp
  rw [readChannel, readMany_readerAt blk (by omega), hsum]

theorem readAlpha_readerAt (blk : Block) {d : ModeDescriptor} {p : Nat} (h : p + alphaCount d * d.alphaBits ≤ 128) :
    readAlpha blk d (readerAt p) =
      .value (fieldsAt blk (List.replicate (alphaCount d) d.alphaBits) p) (readerAt (p + alphaCount d * d.alphaBits)) := by
  unfold readAlpha alphaCount at *
  split_ifs with halpha
  · rw [if_pos halpha] at h
    exact readChannel_readerAt blk h
  · simp [fieldsAt]

/-- The p-bits of the endpoints: as stored, or each shared bit for both endpoints of its subset (42_field_extractor.md
R101). -/
def endpointPbits (d : ModeDescriptor) (p : List Nat) : List Nat :=
  if d.endpointPbits = 1 then p else p.flatMap fun q => [q, q]

theorem readPbits_readerAt (blk : Block) {d : ModeDescriptor} {p : Nat} (h : p + pbitCount d ≤ 128) :
    readPbits blk d (readerAt p) =
      .value (endpointPbits d (fieldsAt blk (List.replicate (pbitCount d) 1) p)) (readerAt (p + pbitCount d)) := by
  unfold readPbits pbitCount endpointPbits at *
  split_ifs with hperEndpoint hshared
  · rw [if_pos hperEndpoint] at h
    simpa using readChannel_readerAt blk (ns := d.subsets) (bits := 1) (by simpa using h)
  · rw [if_neg hperEndpoint, if_pos hshared] at h
    rw [readMany_readerAt blk (by simpa using h), bind_value]
    simp
  · rfl

theorem readSecondIndices_readerAt (blk : Block) {d : ModeDescriptor} {part p : Nat}
    (h : p + (secondWidths d part).sum ≤ 128) : readSecondIndices blk d part (readerAt p) =
      .value (fieldsAt blk (secondWidths d part) p) (readerAt (p + (secondWidths d part).sum)) := by
  unfold readSecondIndices secondWidths at *
  split_ifs with hplane
  · rw [if_pos hplane] at h
    exact readMany_readerAt blk h
  · rfl

/-- The raw field set of a mode's operands: its fixed shape, with the shared p-bits copied (10_state.md R31). -/
def rawFields (d : ModeDescriptor) (o : RawFields) : RawFields where
  part := o.part
  rot := o.rot
  isb := o.isb
  r := zeroPad 6 o.r
  g := zeroPad 6 o.g
  b := zeroPad 6 o.b
  a := zeroPad 6 o.a
  p := zeroPad 6 (endpointPbits d o.p)
  idx1 := zeroPad 16 o.idx1
  idx2 := zeroPad 16 o.idx2

/-- The extractor reads the operands at the bit ranges of the mode, and ends at bit 128 with nothing left. -/
theorem extract_modeTable (blk : Block) (m : Mode) :
    extract blk (modeTable m) m = .value (rawFields (modeTable m) (operandsAt blk (modeTable m) m)) (readerAt 128) := by
  have hpart : bitsAt blk (m.val + 1) (modeTable m).partitionBits < 2 ^ (modeTable m).partitionBits := bitsAt_lt ..
  have hplane := indexWidths_modeTable_sum hpart
  have hend := secondPos_add_sum hpart
  have hstart : Reader.start m = readerAt (m.val + 1) := rfl
  simp only [secondPos, planePos, pbitPos, alphaPos, bluePos, greenPos, redPos] at hend
  rw [extract, hstart, readBits_readerAt blk (by omega), bind_value, readBits_readerAt blk (by omega), bind_value,
    readBits_readerAt blk (by omega), bind_value, readChannel_readerAt blk (by omega), bind_value,
    readChannel_readerAt blk (by omega), bind_value, readChannel_readerAt blk (by omega), bind_value,
    readAlpha_readerAt blk (by omega), bind_value, readPbits_readerAt blk (by omega), bind_value,
    readIndices, readMany_readerAt blk (by omega), bind_value, hplane, readSecondIndices_readerAt blk (by omega), bind_value,
    hend]
  rfl

/-- Settles O13: the extractor ends at bit 128. -/
theorem extractionUsesExactlyTheBudget : Obligations.ExtractionUsesExactlyTheBudget := fun blk m =>
  ⟨_, _, extract_modeTable blk m, rfl, rfl, rfl⟩

/-! ### The raw field set against the operands -/

theorem eq_zeroPad {n : Nat} {xs : List Nat} (h : xs.length = n) : xs = zeroPad n xs := by
  simp [zeroPad, h]

theorem eq_take_zeroPad {n k : Nat} {xs : List Nat} (h : xs.length = k) : xs = (zeroPad n xs).take k :=
  (List.take_left' h).symm

theorem zeroPad_length {n : Nat} {xs : List Nat} (h : xs.length ≤ n) : (zeroPad n xs).length = n := by
  simp [zeroPad, h]

/-- Past the fields read, the raw field set holds 0. -/
theorem zeroPad_getD_eq_zero {n j : Nat} {xs : List Nat} (h : xs.length ≤ j) : (zeroPad n xs).getD j 0 = 0 := by
  rw [zeroPad_getD, List.getD_eq_default _ _ h]

theorem alphaCount_le (d : ModeDescriptor) : alphaCount d ≤ 2 * d.subsets := by
  unfold alphaCount
  split <;> omega

/-- There is one p-bit for each endpoint in use at most. -/
theorem endpointPbits_length_le {d : ModeDescriptor} {p : List Nat} (h : p.length = pbitCount d) :
    (endpointPbits d p).length ≤ 2 * d.subsets := by
  unfold pbitCount at h
  unfold endpointPbits
  split_ifs at h ⊢ with hperEndpoint hshared
  · omega
  · simp [h, Nat.mul_comm]
  · simp [h]

/-- Only modes 4 and 5 have a rotation and a secondary plane. -/
theorem modeTable_noRotation {m : Mode} (h4 : m ≠ 4) (h5 : m ≠ 5) :
    (modeTable m).rotationBits = 0 ∧ (modeTable m).index2Bits = 0 := by
  revert m
  decide

/-- Only mode 4 has an index-selection bit. -/
theorem modeTable_noSelection {m : Mode} (h4 : m ≠ 4) : (modeTable m).indexSelectionBits = 0 := by
  revert m
  decide

section Lengths
variable {d : ModeDescriptor} {o : RawFields} (h : OperandsFit d o)
include h

theorem OperandsFit.r_length : o.r.length = 2 * d.subsets := by simpa using h.r.length_eq.symm
theorem OperandsFit.g_length : o.g.length = 2 * d.subsets := by simpa using h.g.length_eq.symm
theorem OperandsFit.b_length : o.b.length = 2 * d.subsets := by simpa using h.b.length_eq.symm
theorem OperandsFit.a_length : o.a.length = alphaCount d := by simpa using h.a.length_eq.symm
theorem OperandsFit.p_length : o.p.length = pbitCount d := by simpa using h.p.length_eq.symm
theorem OperandsFit.idx1_length : o.idx1.length = 16 := by simpa using h.idx1.length_eq.symm

theorem OperandsFit.idx2_length (hd : d.index2Bits > 0) : o.idx2.length = 16 := by
  simpa [secondWidths, hd] using h.idx2.length_eq.symm

theorem OperandsFit.idx2_length_le : o.idx2.length ≤ 16 := by
  by_cases hd : d.index2Bits > 0
  · exact (h.idx2_length hd).le
  · simp [h.idx2_eq_nil (Nat.eq_zero_of_not_pos hd)]

end Lengths

/-- Settles O14: the extractor's raw fields are the operands at the bit ranges, padded to the fixed shape. -/
theorem extractorReadsTheTableRanges : Obligations.ExtractorReadsTheTableRanges := by
  intro blk m raw r hextract
  rw [extract_modeTable] at hextract
  obtain ⟨rfl, -⟩ := ReadResult.value.inj hextract
  have hdecode := decodeMode_eq m blk
  have hfit := operandsFit_operandsAt blk (modeTable m) m
  generalize operandsAt blk (modeTable m) m = o at hdecode hfit
  have hsubsets : (modeTable m).subsets ≤ 3 := by obtain h | h | h := modeTable_subsets m <;> omega
  have hr := hfit.r_length
  have hg := hfit.g_length
  have hb := hfit.b_length
  have ha := hfit.a_length
  have hp := hfit.p_length
  have haLe := alphaCount_le (modeTable m)
  have hpLe := endpointPbits_length_le hp
  have hidx1 := hfit.idx1_length
  refine ⟨?mode0, ?mode1, ?mode2, ?mode3, ?mode4, ?mode5, ?mode6, ?mode7, ?absentSubsets, ?noPartition, ?noRotation,
    ?noSelection, ?noAlpha, ?noPbits, zeroPad_length (by omega), zeroPad_length (by omega), zeroPad_length (by omega),
    zeroPad_length (by omega), zeroPad_length (by omega), zeroPad_length (by omega), zeroPad_length hfit.idx2_length_le⟩
  case mode0 =>
    rintro rfl
    exact hdecode.trans ((Instr.bc7m0.injEq ..).mpr
      ⟨rfl, eq_zeroPad hr, eq_zeroPad hg, eq_zeroPad hb, eq_zeroPad hp, eq_zeroPad hidx1⟩)
  case mode1 =>
    rintro rfl
    obtain ⟨q0, q1, hq⟩ := List.length_eq_two.mp hp
    have hraw : (rawFields (modeTable 1) o).p = [q0, q0, q1, q1, 0, 0] := by rw [rawFields, hq]; rfl
    rw [hraw]
    exact ⟨hdecode.trans ((Instr.bc7m1.injEq ..).mpr
      ⟨rfl, eq_take_zeroPad hr, eq_take_zeroPad hg, eq_take_zeroPad hb, hq, eq_zeroPad hidx1⟩), rfl, rfl⟩
  case mode2 =>
    rintro rfl
    exact hdecode.trans ((Instr.bc7m2.injEq ..).mpr
      ⟨rfl, eq_zeroPad hr, eq_zeroPad hg, eq_zeroPad hb, eq_zeroPad hidx1⟩)
  case mode3 =>
    rintro rfl
    exact hdecode.trans ((Instr.bc7m3.injEq ..).mpr
      ⟨rfl, eq_take_zeroPad hr, eq_take_zeroPad hg, eq_take_zeroPad hb, eq_take_zeroPad hp, eq_zeroPad hidx1⟩)
  case mode4 =>
    rintro rfl
    exact hdecode.trans ((Instr.bc7m4.injEq ..).mpr
      ⟨rfl, rfl, eq_take_zeroPad hr, eq_take_zeroPad hg, eq_take_zeroPad hb, eq_take_zeroPad ha, eq_zeroPad hidx1,
        eq_zeroPad (hfit.idx2_length (by decide))⟩)
  case mode5 =>
    rintro rfl
    exact hdecode.trans ((Instr.bc7m5.injEq ..).mpr
      ⟨rfl, eq_take_zeroPad hr, eq_take_zeroPad hg, eq_take_zeroPad hb, eq_take_zeroPad ha, eq_zeroPad hidx1,
        eq_zeroPad (hfit.idx2_length (by decide))⟩)
  case mode6 =>
    rintro rfl
    exact hdecode.trans ((Instr.bc7m6.injEq ..).mpr
      ⟨eq_take_zeroPad hr, eq_take_zeroPad hg, eq_take_zeroPad hb, eq_take_zeroPad ha, eq_take_zeroPad hp, eq_zeroPad hidx1⟩)
  case mode7 =>
    rintro rfl
    exact hdecode.trans ((Instr.bc7m7.injEq ..).mpr
      ⟨rfl, eq_take_zeroPad hr, eq_take_zeroPad hg, eq_take_zeroPad hb, eq_take_zeroPad ha, eq_take_zeroPad hp,
        eq_zeroPad hidx1⟩)
  case absentSubsets =>
    intro j hj
    exact ⟨zeroPad_getD_eq_zero (by omega), zeroPad_getD_eq_zero (by omega), zeroPad_getD_eq_zero (by omega),
      zeroPad_getD_eq_zero (by omega), zeroPad_getD_eq_zero (by omega)⟩
  case noPartition => rintro (rfl | rfl | rfl) <;> exact hfit.part_eq_zero rfl
  case noRotation =>
    intro h4 h5
    obtain ⟨hrot, hidx2⟩ : (modeTable m).rotationBits = 0 ∧ (modeTable m).index2Bits = 0 := modeTable_noRotation h4 h5
    exact ⟨hfit.rot_eq_zero hrot, fun j => zeroPad_getD_eq_zero (by simp [hfit.idx2_eq_nil hidx2])⟩
  case noSelection => exact fun h4 => hfit.isb_eq_zero (modeTable_noSelection h4)
  case noAlpha =>
    rintro (rfl | rfl | rfl | rfl) j <;> exact zeroPad_getD_eq_zero (by simp [hfit.a_eq_nil rfl])
  case noPbits =>
    rintro (rfl | rfl | rfl) j <;> exact zeroPad_getD_eq_zero (by simp [hfit.p_eq_nil rfl, endpointPbits])

end Sys2Proof.Machine
end

section
/-! The datapath at its corners: the Endpoint Expander at the ends of its range, the Interpolator between its endpoints. -/

namespace Sys2Proof.Machine

open Sys2Proof.Stated

/-- Settles O16: precision 8 from the expander's closed case, the ends of each precision one by one. -/
theorem expandCornersAreExact : Obligations.ExpandCornersAreExact := by
  refine ⟨?precisionEight, ?precisionEightPbit, ?ends, ?endsPbit⟩
  case precisionEight => exact fun v _ => expand_of_eq_eight v (Nat.zero_le 1) (Nat.zero_le 1) rfl
  case precisionEightPbit => exact fun v q _ hq => expand_of_eq_eight v le_rfl hq rfl
  case ends => intro bits h4 h8; interval_cases bits <;> decide
  case endsPbit => intro bits h3 h7; interval_cases bits <;> decide

/-- The interpolated byte is the blend, for every index: no weight is above 64. -/
theorem toNat_interpolate_eq_mix (e0 e1 : Byte) (k w : Nat) :
    (interpolate e0 e1 k w).toNat = mix e0.toNat e1.toNat (weight w k) := by
  have hbyte : mix e0.toNat e1.toNat (weight w k) ≤ 255 :=
    mix_le (Nat.le_of_lt_succ e0.isLt) (Nat.le_of_lt_succ e1.isLt) (weight_le w k)
  rw [toNat_interpolate, Nat.mod_eq_of_lt (Nat.lt_succ_of_le hbyte)]

/-- Endpoints from `m` up, at weights that sum to 64, blend to at least `m`. -/
theorem le_mix {a b m wt : Nat} (ha : m ≤ a) (hb : m ≤ b) (hwt : wt ≤ 64) : m ≤ mix a b wt := by
  have hsum : 64 * m ≤ (64 - wt) * a + wt * b :=
    calc 64 * m
      _ = (64 - wt) * m + wt * m := by rw [← Nat.add_mul, Nat.sub_add_cancel hwt]
      _ ≤ (64 - wt) * a + wt * b := by gcongr
  rw [mix]
  omega

theorem mix_self {a wt : Nat} (hwt : wt ≤ 64) : mix a a wt = a :=
  (mix_le le_rfl le_rfl hwt).antisymm (le_mix le_rfl le_rfl hwt)

/-- Equal endpoints interpolate to themselves. -/
theorem interpolate_self (e : Byte) (k w : Nat) : interpolate e e k w = e := by
  refine BitVec.eq_of_toNat_eq ?_
  rw [toNat_interpolate_eq_mix, mix_self (weight_le w k)]

theorem interpolate_of_weight_zero {w k : Nat} (e0 e1 : Byte) (h : weight w k = 0) : interpolate e0 e1 k w = e0 := by
  refine BitVec.eq_of_toNat_eq ?_
  rw [toNat_interpolate_eq_mix, h, mix]
  omega

theorem interpolate_of_weight_64 {w k : Nat} (e0 e1 : Byte) (h : weight w k = 64) : interpolate e0 e1 k w = e1 := by
  refine BitVec.eq_of_toNat_eq ?_
  rw [toNat_interpolate_eq_mix, h, mix]
  omega

/-- A weight table runs from 0 to 64. -/
theorem weight_ends {w : Nat} (h : w = 2 ∨ w = 3 ∨ w = 4) : weight w 0 = 0 ∧ weight w (2 ^ w - 1) = 64 := by
  obtain rfl | rfl | rfl := h <;> decide

/-- Settles O18: the blend lies between its endpoints, and has weight 0 or 64 at the ends of the table. -/
theorem interpolateStaysBetweenEndpoints : Obligations.InterpolateStaysBetweenEndpoints := by
  intro e0 e1 w k hw _
  obtain ⟨hfirst, hlast⟩ := weight_ends hw
  rw [toNat_interpolate_eq_mix]
  exact ⟨le_mix (min_le_left ..) (min_le_right ..) (weight_le w k),
    mix_le (le_max_left ..) (le_max_right ..) (weight_le w k), interpolate_of_weight_zero e0 e1 hfirst, interpolate_of_weight_64 e0 e1 hlast⟩

end Sys2Proof.Machine
end

section
/-! The sequencer of 45_block_decoder.md R123 against the mode rules R135 to R142: each mode rule is the shared texel of R131 at
its descriptor. -/

namespace Sys2Proof.Machine

/-- The sixteen texels of a mode's operands, as the sequencer's shared steps make them. -/
def modeTexel (m : Mode) (o : RawFields) : Nat → Lanes :=
  texel (modeTable m) (rawFields (modeTable m) o) (expandAll (modeTable m) (rawFields (modeTable m) o))
    (partitionMap (modeTable m).subsets o.part)

theorem partitionMap_getD (ns part : Nat) {i : Nat} (hi : i < 16) : (partitionMap ns part).getD i 0 = partition ns part i := by
  simp [partitionMap, hi]

/-- The endpoint of a subset in use is its expanded raw fields. -/
theorem endpoint_expandAll {d : ModeDescriptor} (raw : RawFields) {sub e : Nat} (hd : d.subsets ≤ 3) (hsub : sub < d.subsets)
    (he : e < 2) : endpoint (expandAll d raw) sub e = expandEndpoint d raw (2 * sub + e) := by
  have hlt : 2 * sub + e < 6 := by omega
  have huse : 2 * sub + e < 2 * d.subsets := by omega
  simp [endpoint, expandAll, hlt, huse]

/-- A texel is the rotated blend of the two endpoints of its subset (45_block_decoder.md R131). -/
theorem modeTexel_eq {m : Mode} {o : RawFields} {i : Nat} (h : OperandsFit (modeTable m) o) (hi : i < 16) :
    modeTexel m o i =
      let d := modeTable m
      let raw := rawFields d o
      let sub := partition d.subsets o.part i
      let c := colorIndex d raw i
      let a := alphaIndex d raw i
      rotate (blend (expandEndpoint d raw (2 * sub)) (expandEndpoint d raw (2 * sub + 1)) c.k c.w a.k a.w) o.rot := by
  have hsub := partition_lt_subsets h.part hi
  have hsubsets : (modeTable m).subsets ≤ 3 := by obtain h | h | h := modeTable_subsets m <;> omega
  rw [modeTexel, texel, partitionMap_getD _ _ hi, endpoint_expandAll _ hsubsets hsub (by decide),
    endpoint_expandAll _ hsubsets hsub (by decide)]
  rfl

/-! ### The raw field set, item by item -/

/-- A shared p-bit stands for both endpoints of its subset. -/
theorem flatMap_twice_getD (p : List Nat) (j : Nat) : (p.flatMap fun q => [q, q]).getD j 0 = p.getD (j / 2) 0 := by
  induction p generalizing j with
  | nil => simp
  | cons q qs ih =>
    match j with
    | 0 | 1 => rfl
    | j + 2 =>
      have hhalf : (j + 2) / 2 = j / 2 + 1 := by omega
      rw [hhalf]
      exact ih j

/-- The p-bit of endpoint `j`, its own or that of its subset. -/
def endpointPbit (d : ModeDescriptor) (o : RawFields) (j : Nat) : Nat :=
  if d.endpointPbits = 1 then o.p.getD j 0 else o.p.getD (j / 2) 0

/-- The p-bit of endpoint `j` in the raw field set. -/
theorem rawFields_p_getD (d : ModeDescriptor) (o : RawFields) (j : Nat) :
    (rawFields d o).p.getD j 0 = endpointPbit d o j := by
  rw [rawFields, zeroPad_getD, endpointPbits, endpointPbit]
  split
  · rfl
  · exact flatMap_twice_getD o.p j

/-- The expanded endpoint of a mode without alpha. -/
theorem expandEndpoint_opaque {d : ModeDescriptor} (o : RawFields) (j : Nat) (hd : d.alphaBits = 0) :
    expandEndpoint d (rawFields d o) j =
      opaqueEndpoint d.colorBits d.pbc o.r o.g o.b (endpointPbit d o j) j := by
  rw [expandEndpoint, rawFields_p_getD]
  simp only [opaqueEndpoint, rawFields, zeroPad_getD, hd, Nat.lt_irrefl, if_false]

/-- The expanded endpoint of a mode with alpha. -/
theorem expandEndpoint_alpha {d : ModeDescriptor} (o : RawFields) (j : Nat) (hd : d.alphaBits > 0) :
    expandEndpoint d (rawFields d o) j =
      alphaEndpoint d.colorBits d.alphaBits d.pbc o.r o.g o.b o.a (endpointPbit d o j) j := by
  rw [expandEndpoint, rawFields_p_getD]
  simp only [alphaEndpoint, rawFields, zeroPad_getD, hd, if_true]

/-- The alpha lane of two opaque endpoints stays 255. -/
theorem blend_opaque (bits pbc : Nat) (r g b : List Nat) (q q' j j' k w ka wa : Nat) :
    blend (opaqueEndpoint bits pbc r g b q j) (opaqueEndpoint bits pbc r g b q' j') k w ka wa =
      opaqueTexel (opaqueEndpoint bits pbc r g b q j) (opaqueEndpoint bits pbc r g b q' j') k w := by
  simp [blend, opaqueTexel, opaqueEndpoint, interpolate_self]

/-- Without a secondary plane the one plane drives every lane. -/
theorem index_onePlane {d : ModeDescriptor} (o : RawFields) (i : Nat) (hd : d.index2Bits = 0) :
    colorIndex d (rawFields d o) i = ⟨o.idx1.getD i 0, d.indexBits⟩
      ∧ alphaIndex d (rawFields d o) i = ⟨o.idx1.getD i 0, d.indexBits⟩ := by
  simp only [colorIndex, alphaIndex, rawFields, zeroPad_getD, hd, Nat.lt_irrefl, false_and, if_false, gt_iff_lt, and_self]

/-- With a secondary plane the index-selection bit says which plane drives colour (45_block_decoder.md R127). -/
theorem index_twoPlanes {d : ModeDescriptor} (o : RawFields) (i : Nat) (hd : d.index2Bits > 0) :
    colorIndex d (rawFields d o) i =
        (if o.isb = 1 then ⟨o.idx2.getD i 0, d.index2Bits⟩ else ⟨o.idx1.getD i 0, d.indexBits⟩)
      ∧ alphaIndex d (rawFields d o) i =
        (if o.isb = 1 then ⟨o.idx1.getD i 0, d.indexBits⟩ else ⟨o.idx2.getD i 0, d.index2Bits⟩) := by
  simp only [colorIndex, alphaIndex, rawFields, zeroPad_getD, hd, true_and, if_true, and_self]

/-! ### The mode rules -/

/-- The end of a decode depends on the sixteen texels only. -/
theorem finishDecode_congr {m : Mode} {f g : Nat → Lanes} (s : State) (h : ∀ i, i < 16 → f i = g i) :
    finishDecode m f s = finishDecode m g s := by
  have htex : texFile f = texFile g := by
    ext1 i hi
    simp [texFile, h i hi]
  rw [finishDecode, finishDecode, htex]

/-- A texel of a mode without alpha, rotation or secondary plane. -/
theorem modeTexel_opaque {m : Mode} {o : RawFields} {i : Nat} (h : OperandsFit (modeTable m) o) (hi : i < 16)
    (halpha : (modeTable m).alphaBits = 0) (hrot : (modeTable m).rotationBits = 0) (hplane : (modeTable m).index2Bits = 0) :
    modeTexel m o i =
      let sub := partition (modeTable m).subsets o.part i
      let ep := fun j =>
        opaqueEndpoint (modeTable m).colorBits (modeTable m).pbc o.r o.g o.b (endpointPbit (modeTable m) o j) j
      opaqueTexel (ep (2 * sub)) (ep (2 * sub + 1)) (o.idx1.getD i 0) (modeTable m).indexBits := by
  rw [modeTexel_eq h hi, h.rot_eq_zero hrot]
  simp only [expandEndpoint_opaque _ _ halpha, blend_opaque, (index_onePlane o i hplane).1]
  rfl

/-- A texel of a mode with alpha, before rotation. -/
theorem modeTexel_alpha {m : Mode} {o : RawFields} {i : Nat} (h : OperandsFit (modeTable m) o) (hi : i < 16)
    (halpha : (modeTable m).alphaBits > 0) :
    modeTexel m o i =
      let sub := partition (modeTable m).subsets o.part i
      let ep := fun j =>
        alphaEndpoint (modeTable m).colorBits (modeTable m).alphaBits (modeTable m).pbc o.r o.g o.b o.a
          (endpointPbit (modeTable m) o j) j
      let c := colorIndex (modeTable m) (rawFields (modeTable m) o) i
      let a := alphaIndex (modeTable m) (rawFields (modeTable m) o) i
      rotate (blend (ep (2 * sub)) (ep (2 * sub + 1)) c.k c.w a.k a.w) o.rot := by
  rw [modeTexel_eq h hi]
  simp only [expandEndpoint_alpha _ _ halpha]

/-- Every mode rule ends the decode with the texels of the shared steps. -/
theorem exec_modeInstr {m : Mode} {o : RawFields} (h : OperandsFit (modeTable m) o) (s : State) :
    exec (modeInstr m o) s = .next (finishDecode m (modeTexel m o) s) := by
  match m with
  | 0 | 1 | 3 =>
    refine congrArg Host.Outcome.next (finishDecode_congr s fun i hi => ?_)
    rw [modeTexel_opaque h hi rfl rfl rfl]
    rfl
  | 2 =>
    refine congrArg Host.Outcome.next (finishDecode_congr s fun i hi => ?_)
    rw [modeTexel_opaque h hi rfl rfl rfl]
    simp only [endpointPbit, h.p_eq_nil rfl]
    rfl
  | 4 =>
    refine congrArg Host.Outcome.next (finishDecode_congr s fun i hi => ?_)
    obtain ⟨hcolor, halpha⟩ := index_twoPlanes (d := modeTable 4) o i (by decide)
    rw [modeTexel_alpha h hi (by decide)]
    simp only [hcolor, halpha, endpointPbit, h.p_eq_nil rfl]
    by_cases hisb : o.isb = 1
    · simp only [if_pos hisb]; rfl
    · simp only [if_neg hisb]; rfl
  | 5 =>
    refine congrArg Host.Outcome.next (finishDecode_congr s fun i hi => ?_)
    obtain ⟨hcolor, halpha⟩ := index_twoPlanes (d := modeTable 5) o i (by decide)
    rw [modeTexel_alpha h hi (by decide)]
    simp only [hcolor, halpha, h.isb_eq_zero rfl, endpointPbit, h.p_eq_nil rfl]
    rfl
  | 6 | 7 =>
    refine congrArg Host.Outcome.next (finishDecode_congr s fun i hi => ?_)
    rw [modeTexel_alpha h hi (by decide), (index_onePlane o i rfl).1, (index_onePlane o i rfl).2, h.rot_eq_zero rfl]
    rfl

/-! ### DECODE -/

/-- The end of a decode overwrites the STATUS written on the way. -/
theorem finishDecode_setStatus (m : Mode) (f : Nat → Lanes) (s : State) (w : Word) :
    finishDecode m f (setStatus s w) = finishDecode m f s := rfl

/-- The block of a DECODE as an instruction, when its byte 0 has the mode `m`. -/
theorem exec_decodeBlock_of_mode {blk : Block} {m : Mode} (h : lowestSetBit (byte0 blk) = some m) (s : State) :
    exec (decodeBlock blk) s = .next (finishDecode m (modeTexel m (operandsAt blk (modeTable m) m)) s) := by
  rw [decodeBlock_of_mode h, decodeMode_eq, exec_modeInstr (operandsFit_operandsAt blk (modeTable m) m)]

/-- A reserved block as an instruction takes ReservedMode. -/
theorem exec_decodeBlock_of_reserved {blk : Block} (h : byte0 blk = 0) (s : State) :
    exec (decodeBlock blk) s = .next (takeFault .reservedMode s) := by
  rw [decodeBlock_of_reserved h]
  exact exec_bc7Reserved _ s

/-- What a DECODE under the core's own mode table does: no block raises BitBudget, so there are two endings. -/
theorem runDecode_modeTable_cases (s : State) :
    (lowestSetBit (byte0 (operandBlock s)) = none ∧ runDecode modeTable s = takeFault .reservedMode s) ∨
    ∃ m, lowestSetBit (byte0 (operandBlock s)) = some m ∧
      runDecode modeTable s = finishDecode m (modeTexel m (operandsAt (operandBlock s) (modeTable m) m)) s := by
  obtain ⟨hnone, hrun⟩ | ⟨m, hm, ⟨r, hextract, -⟩ | ⟨raw, r, hextract, hrun⟩⟩ := runDecode_cases modeTable s
  · exact .inl ⟨hnone, by rw [hrun, takeFault_beginCommand]⟩
  · rw [extract_modeTable] at hextract
    cases hextract
  · rw [extract_modeTable] at hextract
    obtain ⟨rfl, -⟩ := ReadResult.value.inj hextract
    exact .inr ⟨m, hm, by rw [hrun, finishDecode_setStatus]; rfl⟩

/-- The five steps of DECODE are the instruction of the block, in every state. -/
theorem exec_decodeBlock_operandBlock (s : State) :
    exec (decodeBlock (operandBlock s)) s = .next (runDecode modeTable s) := by
  obtain ⟨hnone, hrun⟩ | ⟨m, hm, hrun⟩ := runDecode_modeTable_cases s
  · rw [exec_decodeBlock_of_reserved (lowestSetBit_eq_none.mp hnone), hrun]
  · rw [exec_decodeBlock_of_mode hm, hrun]

/-- Settles O25: over held words DECODE is `runDecode`, which is the instruction of the block. -/
theorem decodeRunsTheBlockInstruction : Obligations.DecodeRunsTheBlockInstruction := by
  intro s hheld
  calc exec .decode s
    _ = .next (runDecode modeTable s) := execDecode_held s hheld
    _ = exec (decodeBlock (operandBlock s)) s := (exec_decodeBlock_operandBlock s).symm
    _ = exec (decodeBlock (blkValue s)) s := by rw [operandBlock_held s hheld]

/-- Settles O26: the second ending of `runDecode`. -/
theorem failedExtractionTakesBitBudget : Obligations.FailedExtractionTakesBitBudget := by
  intro table s m r hm hextract
  have hrun : runDecode table s = takeFault (.bitBudget m) (setStatus (beginCommand s) (modeKnownStatus m)) := by
    simp only [runDecode, hm, hextract]
  rw [hrun]
  refine ⟨?status, sameBesideStatus_setStatus s _⟩
  case status =>
    rw [takeFault_status]
    clear hrun hextract hm
    revert m
    decide

end Sys2Proof.Machine
end

section
/-! The commands of 45_block_decoder.md section 1 as a host meets them: what MODEQ and DECODE leave in STATUS, what no
instruction changes, and what the outcome depends on. -/

namespace Sys2Proof.Machine

open Sys2Proof.Stated

/-! ### What an instruction can do -/

theorem sameBesideStatusTex_finishDecode (m : Mode) (f : Nat → Lanes) (s : State) :
    sameBesideStatusTex s (finishDecode m f s) := by
  simp [sameBesideStatusTex, sameBlk, sameMemory, sameHost]

theorem sameBesideStatusTex_runDecode (s : State) : sameBesideStatusTex s (runDecode modeTable s) := by
  obtain ⟨-, hrun⟩ | ⟨m, -, hrun⟩ := runDecode_modeTable_cases s <;> rw [hrun]
  · exact (sameBesideStatus_takeFault .reservedMode s).2
  · exact sameBesideStatusTex_finishDecode m _ s

/-- The commands that write no texels (45_block_decoder.md R122, R124, 60_exceptions.md R166, R168). -/
def WritesNoTexels (i : Instr) : Prop := i = .nop ∨ i = .modeq ∨ i = .cmdReserved ∨ ∃ rest, i = .bc7Reserved rest

/-- The instruction meets a free value: a BLK word that it reads holds none (log entry 16). -/
def MeetsFreeWord (i : Instr) (s : State) : Prop :=
  (i = .decode ∧ blkHeld s = false) ∨ (i = .modeq ∧ s.blk0.held = false)

/-- The STATUS a MODEQ over the word `w` leaves (45_block_decoder.md R124). -/
def modeqStatus (w : Word) : Word :=
  match lowestSetBit (w.extractLsb' 0 8) with
  | none => faultStatus .reservedMode
  | some m => modeKnownStatus m

/-- MODEQ only writes STATUS, by the word it meets. -/
theorem runModeq_eq_setStatus (s : State) : runModeq s = setStatus s (modeqStatus (operandWord s 0)) := by
  obtain ⟨hnone, hrun⟩ | ⟨m, hm, hrun⟩ := runModeq_cases s
  · rw [hrun, modeqStatus, hnone, takeFault_beginCommand]; rfl
  · rw [hrun, modeqStatus, hm]; rfl

/-- MODEQ reports a mode or takes ReservedMode. -/
theorem modeqStatus_cases (w : Word) :
    modeqStatus w = faultStatus .reservedMode ∨ ∃ m, modeqStatus w = modeKnownStatus m := by
  unfold modeqStatus
  split
  · exact .inl rfl
  · exact .inr ⟨_, rfl⟩

@[simp] theorem statusValid_modeqStatus (w : Word) : statusValid (modeqStatus w) = false := by
  unfold modeqStatus
  split <;> exact statusValid_statusWord ..

theorem modeqStatus_of_mode {w : Word} {m : Mode} (hset : w.getLsbD m.val = true)
    (hbelow : ∀ j, j < m.val → w.getLsbD j = false) : modeqStatus w = modeKnownStatus m := by
  have hmode : lowestSetBit (w.extractLsb' 0 8) = some m :=
    lowestSetBit_eq_some.mpr ⟨by simpa using hset, fun j hj => by simp [hbelow j hj]⟩
  rw [modeqStatus, hmode]

theorem modeqStatus_of_reserved {w : Word} (hzero : w.extractLsb' 0 8 = 0) :
    modeqStatus w = faultStatus .reservedMode := by rw [modeqStatus, hzero, lowestSetBit_zero]

/-- The STATUS words an instruction leaves that does not end a decode: NOP's own, a fault, or MODEQ's report. -/
def LeavesStatus (i : Instr) (s : State) (w : Word) : Prop :=
  (i = .nop ∧ w = s.status) ∨ w = faultStatus .reservedMode ∨ w = faultStatus .illegalCommand
    ∨ (i = .modeq ∧ ∃ m, w = modeKnownStatus m)

/-- What an instruction can do: write STATUS, or end a decode; and spend free values when it met one. -/
theorem exec_eq_next {i : Instr} {s t : State} (h : exec i s = .next t) :
    ∃ used : Bool, (used = true → MeetsFreeWord i s) ∧
      ((∃ w, LeavesStatus i s w ∧ t = spendFree used (setStatus s w)) ∨
        (¬ WritesNoTexels i ∧ ∃ m f, t = spendFree used (finishDecode m f s))) := by
  cases i with
  | bc7m0 | bc7m1 | bc7m2 | bc7m3 | bc7m4 | bc7m5 | bc7m6 | bc7m7 =>
    cases h
    exact ⟨false, nofun, .inr ⟨by simp [WritesNoTexels], _, _, (spendFree_false _).symm⟩⟩
  | bc7Reserved rest =>
    cases h
    exact ⟨false, nofun, .inl ⟨faultStatus .reservedMode, .inr (.inl rfl), rfl⟩⟩
  | nop =>
    cases h
    exact ⟨false, nofun, .inl ⟨s.status, .inl ⟨rfl, rfl⟩, rfl⟩⟩
  | cmdReserved =>
    cases h
    exact ⟨false, nofun, .inl ⟨faultStatus .illegalCommand, .inr (.inr (.inl rfl)), rfl⟩⟩
  | decode =>
    cases h
    refine ⟨!blkHeld s, fun hused => .inl ⟨rfl, by simpa using hused⟩, ?_⟩
    obtain ⟨-, hrun⟩ | ⟨m, -, hrun⟩ := runDecode_modeTable_cases s <;> rw [hrun]
    · exact .inl ⟨faultStatus .reservedMode, .inr (.inl rfl), rfl⟩
    · exact .inr ⟨by simp [WritesNoTexels], m, _, rfl⟩
  | modeq =>
    cases h
    refine ⟨!s.blk0.held, fun hused => .inr ⟨rfl, by simpa using hused⟩, .inl ⟨_, ?_, by rw [runModeq_eq_setStatus]⟩⟩
    obtain hfault | ⟨m, hm⟩ := modeqStatus_cases (operandWord s 0)
    · exact .inr (.inl hfault)
    · exact .inr (.inr (.inr ⟨rfl, m, hm⟩))

/-- A successful decode sets VALID (10_state.md R25). -/
@[simp] theorem statusValid_decodedStatus (m : Mode) : statusValid (decodedStatus m) = true := statusValid_statusWord ..

/-- Settles O37: both outcomes of an instruction keep BLK, memory and the host, and only the end of a decode writes TEX. -/
theorem instructionFrame : Obligations.InstructionFrame := by
  intro i s t h
  obtain ⟨used, hused, ht⟩ := exec_eq_next h
  have hcounter : (i = .decode → blkHeld s = true) → (i = .modeq → s.blk0.held = true) → used = false := by
    intro hdecode hmodeq
    by_contra hmet
    obtain ⟨hi, hfree⟩ | ⟨hi, hfree⟩ := hused (Bool.eq_true_of_not_eq_false hmet)
    · exact absurd (hdecode hi) (by simp [hfree])
    · exact absurd (hmodeq hi) (by simp [hfree])
  obtain ⟨w, -, rfl⟩ | ⟨htexels, m, f, rfl⟩ := ht
  · refine ⟨⟨rfl, rfl, rfl, rfl⟩, fun _ => rfl, rfl, rfl, rfl, ?_, fun _ => rfl, fun htex => absurd rfl htex⟩
    intro hdecode hmodeq
    simp [hcounter hdecode hmodeq]
  · refine ⟨by simp [sameBlk], by simp [sameMemory], by simp, by simp, by simp, ?_, fun hno => absurd hno htexels,
      fun _ => by simp⟩
    intro hdecode hmodeq
    simp [hcounter hdecode hmodeq]

/-! ### MODEQ -/

/-- While VALID is 0 a TEX read answers with a free value (log entry 16). -/
theorem regRead_tex_invalid {s : State} (i : Fin 16) (h : statusValid s.status = false) :
    regRead 32 (RegName.tex i).offset s = .next (Config.freeTexWord s.freeUsed i) := by
  rw [regRead_offset, readReg, if_neg (by simp [h])]

/-- Settles O22: MODEQ writes the STATUS of the word it meets, which has VALID 0. -/
theorem modeqReportsTheMode : Obligations.ModeqReportsTheMode := by
  refine ⟨rfl, fun s hheld => ?_⟩
  have hstatus : (runModeq s).status = modeqStatus s.blk0.value := by
    rw [runModeq_eq_setStatus, operandWord_held s 0 hheld]; rfl
  refine ⟨runModeq s, execModeq_held s hheld, sameBesideStatus_runModeq s, ?mode, ?reserved, ?texRead⟩
  case mode =>
    intro m hset hbelow
    rw [hstatus, modeqStatus_of_mode hset hbelow]
    exact ⟨modeKnownStatus_eq m, statusValid_statusWord .., statusFault_modeKnownStatus m, statusModeValid_statusWord ..,
      statusMode_modeKnownStatus m⟩
  case reserved =>
    intro hzero
    rw [hstatus, modeqStatus_of_reserved hzero, faultStatus_reservedMode]
  case texRead =>
    exact fun i => regRead_tex_invalid i (by rw [hstatus, statusValid_modeqStatus])

/-! ### DECODE and MODEQ over words without a value -/

/-- Word `k` of the block a DECODE meets. -/
theorem operandBlock_extract (s : State) (k : Fin 4) :
    (operandBlock s).extractLsb' (32 * k.val) 32 = operandWord s k := by
  refine BitVec.eq_of_getLsbD_eq fun j hj => ?_
  match k with
  | 0 | 1 | 2 | 3 => grind [operandBlock]

/-- DECODE in every state. -/
theorem exec_decode (s : State) : exec .decode s = .next (spendFree (!blkHeld s) (runDecode modeTable s)) := rfl

/-- MODEQ in every state. -/
theorem exec_modeq (s : State) : exec .modeq s = .next (spendFree (!s.blk0.held) (runModeq s)) := rfl

theorem blkHeld_eq_false (s : State) : blkHeld s = false ↔ ∃ k : Fin 4, (getBlk s k).held = false := by
  rw [← Bool.not_eq_true, blkHeld_eq_true]
  simp

/-- The CMD writes outside the host's contract (70_reset_and_hazards.md R186). -/
theorem commandDefined_eq_false (w : Word) (s : State) :
    commandDefined w s = false ↔ (w = 1 ∧ blkHeld s = false) ∨ (w = 2 ∧ s.blk0.held = false) := by
  unfold commandDefined decodeCommand
  split_ifs with h0 h1 h2 h3
  · subst h0; simp [operandsHeld]
  · subst h1; simp [operandsHeld]
  · subst h2; simp [operandsHeld]
  · subst h3; simp [operandsHeld]
  · refine iff_of_false not_false ?_
    rintro (⟨hw, -⟩ | ⟨hw, -⟩)
    exacts [h1 hw, h2 hw]

/-- A step inside the contract is the machine's. -/
theorem contractStep_of_ne_none {s : State} (h : contractStep s ≠ none) : contractStep s = some (step s) := by
  obtain ⟨o, ho⟩ := Option.ne_none_iff_exists'.mp h
  rw [ho, ((contractStep_eq_some s o).mp ho).1]

/-- Settles O23: the commands run on the operand words; the contract's condition is that of the command's operands. -/
theorem commandsRunWithoutBlock : Obligations.CommandsRunWithoutBlock := by
  intro s
  refine ⟨fun k => ⟨operandWord_held s k, operandWord_unheld s k, operandBlock_extract s k⟩, ?decode, ?modeq, ?contract⟩
  case decode =>
    refine ⟨runDecode modeTable s, exec_decodeBlock_operandBlock s, sameBesideStatusTex_runDecode s, ?_⟩
    obtain ⟨-, -, -, -, -, hfree⟩ := sameBesideStatusTex_runDecode s
    rw [exec_decode, spendFree, hfree]
    simp only [← blkHeld_eq_true]
    cases blkHeld s <;> rfl
  case modeq =>
    obtain ⟨htex, hblk, hmem, hpending, hread, hresult, hfree⟩ := sameBesideStatus_runModeq s
    refine ⟨_, exec_modeq s, htex, hblk, hmem, hpending, hread, hresult, ?counter, ?mode, ?reserved⟩
    case counter =>
      rw [spendFree_freeUsed, hfree]
      cases s.blk0.held <;> rfl
    case mode =>
      intro m hset hbelow
      rw [spendFree_status, runModeq_eq_setStatus, setStatus_status, modeqStatus_of_mode hset hbelow, modeKnownStatus_eq]
    case reserved =>
      intro hzero
      rw [spendFree_status, runModeq_eq_setStatus, setStatus_status, modeqStatus_of_reserved hzero, faultStatus_reservedMode]
  case contract =>
    intro w rest hpending
    refine ⟨?_, contractStep_of_ne_none⟩
    rw [contractStep_eq_none, ← blkHeld_eq_false, ← commandDefined_eq_false]
    simp [hpending]

/-! ### DECODE over a held block -/

/-- STATUS after a successful DECODE is 0x81 | (m << 4) (45_block_decoder.md R123). -/
theorem decodedStatus_eq (m : Mode) : decodedStatus m = BitVec.ofNat 32 (0x81 + 16 * m.val) := by
  revert m; decide

/-- Settles O24: a block with a mode ends its decode, whatever its other bits; the rest is the reserved block. -/
theorem everyNonReservedBlockDecodes : Obligations.EveryNonReservedBlockDecodes := by
  intro s hheld
  refine ⟨?decodes, ?reserved⟩
  case decodes =>
    intro hbyte
    obtain ⟨m, hm⟩ := exists_lowestSetBit (b := byte0 (blkValue s)) hbyte
    obtain ⟨hset, hbelow⟩ := (lowestSetBit_byte0 (blkValue s) m).mp hm
    have hrun := (decodeRunsTheBlockInstruction s hheld).trans (exec_decodeBlock_of_mode hm s)
    exact ⟨_, m, hrun, hset, hbelow, decodedStatus_eq m, sameBesideStatusTex_finishDecode m _ s⟩
  case reserved =>
    intro hzero
    exact ⟨_, exec_decode_of_reserved hheld hzero, statusFault_statusWord .., statusFcause_statusWord ..,
      sameBesideStatus_takeFault .reservedMode s⟩

/-! ### What the outcome depends on -/

/-- The two endings of a DECODE of the block `blk`. -/
theorem runDecode_of_operandBlock {s : State} {blk : Block} (h : operandBlock s = blk) :
    (lowestSetBit (byte0 blk) = none ∧ runDecode modeTable s = takeFault .reservedMode s) ∨
    ∃ m, lowestSetBit (byte0 blk) = some m ∧
      runDecode modeTable s = finishDecode m (modeTexel m (operandsAt blk (modeTable m) m)) s :=
  h ▸ runDecode_modeTable_cases s

/-- DECODE of the same block in two states ends with the same STATUS, and with the same TEX when it succeeds. -/
theorem runDecode_agree {s u : State} (h : operandBlock s = operandBlock u) :
    (runDecode modeTable s).status = (runDecode modeTable u).status ∧
      (statusValid (runDecode modeTable s).status = true → (runDecode modeTable s).tex = (runDecode modeTable u).tex) := by
  obtain ⟨hnone, hs⟩ | ⟨m, hm, hs⟩ := runDecode_of_operandBlock h <;>
    obtain ⟨hnone', hu⟩ | ⟨m', hm', hu⟩ := runDecode_of_operandBlock (s := u) rfl
  · rw [hs, hu]
    refine ⟨rfl, fun hvalid => ?_⟩
    rw [takeFault_status, faultStatus, statusValid_statusWord] at hvalid
    cases hvalid
  · cases hnone.symm.trans hm'
  · cases hm.symm.trans hnone'
  · obtain rfl : m = m' := Option.some.inj (hm.symm.trans hm')
    simp [hs, hu]

/-- The operand words are those of BLK, or free values by the counter. -/
theorem operandWord_congr {s t : State} (hblk : sameBlk s t) (hfree : t.freeUsed = s.freeUsed) (k : Fin 4) :
    operandWord t k = operandWord s k := by
  rw [operandWord, operandWord, getBlk_of_sameBlk hblk k, hfree]

theorem operandBlock_congr {s t : State} (hblk : sameBlk s t) (hfree : t.freeUsed = s.freeUsed) :
    operandBlock t = operandBlock s := by
  simp only [operandBlock, operandWord_congr hblk hfree]

theorem operandBlock_finishDecode (m : Mode) (f : Nat → Lanes) (s : State) :
    operandBlock (finishDecode m f s) = operandBlock s :=
  operandBlock_congr (sameBlk_finishDecode m f s) (finishDecode_freeUsed m f s)

theorem operandBlock_takeFault (f : CoreFault) (s : State) : operandBlock (takeFault f s) = operandBlock s :=
  operandBlock_congr ⟨rfl, rfl, rfl, rfl⟩ rfl

theorem setStatus_setTex_idem (s : State) (t : TexFile) (w : Word) :
    setStatus (setTex (setStatus (setTex s t) w) t) w = setStatus (setTex s t) w := rfl

/-- A second DECODE finds the block as the first left it, and ends in the same state. -/
theorem runDecode_idem (s : State) : runDecode modeTable (runDecode modeTable s) = runDecode modeTable s := by
  obtain ⟨hnone, hs⟩ | ⟨m, hm, hs⟩ := runDecode_modeTable_cases s <;> rw [hs]
  · obtain ⟨-, ht⟩ | ⟨m', hm', -⟩ := runDecode_of_operandBlock (operandBlock_takeFault .reservedMode s)
    · exact ht
    · cases hnone.symm.trans hm'
  · obtain ⟨hnone', -⟩ | ⟨m', hm', ht⟩ := runDecode_of_operandBlock (operandBlock_finishDecode m
      (modeTexel m (operandsAt (operandBlock s) (modeTable m) m)) s)
    · cases hm.symm.trans hnone'
    · obtain rfl : m = m' := Option.some.inj (hm.symm.trans hm')
      rw [ht, finishDecode, finishDecode, setStatus_setTex_idem]

theorem runModeq_idem (s : State) : runModeq (runModeq s) = runModeq s := by
  obtain ⟨-, hblk, -, -, -, -, hfree⟩ := sameBesideStatus_runModeq s
  rw [runModeq_eq_setStatus (runModeq s), operandWord_congr hblk hfree, runModeq_eq_setStatus s]
  rfl

/-- Settles O38: `runDecode` and `runModeq` agree on states with the same operands, and leave the operands as they were. -/
theorem decodeDependsOnBlkOnly : Obligations.DecodeDependsOnBlkOnly := by
  refine ⟨?decode, ?modeq⟩
  case decode =>
    intro s u t v hblock ht hv
    obtain rfl := Host.Outcome.next.inj ((exec_decode s).symm.trans ht)
    obtain rfl := Host.Outcome.next.inj ((exec_decode u).symm.trans hv)
    obtain ⟨hstatus, htex⟩ := runDecode_agree hblock
    refine ⟨hstatus, htex, fun hheld => ?again⟩
    case again =>
      have hheld' : blkHeld (runDecode modeTable s) = true := by
        rw [blkHeld_eq_true] at hheld ⊢
        exact fun k => getBlk_of_sameBlk (sameBlk_runDecode modeTable s) k ▸ hheld k
      simp only [exec_decode, hheld, hheld', Bool.not_true, spendFree_false, runDecode_idem]
  case modeq =>
    intro s u t v hword ht hv
    obtain rfl := Host.Outcome.next.inj ((exec_modeq s).symm.trans ht)
    obtain rfl := Host.Outcome.next.inj ((exec_modeq u).symm.trans hv)
    refine ⟨by simp [runModeq_eq_setStatus, hword], by simp [runModeq_eq_setStatus], fun hheld => ?again⟩
    case again =>
      have hheld' : (runModeq s).blk0.held = true := by rwa [(sameBlk_runModeq s).1]
      simp only [exec_modeq, hheld, hheld', Bool.not_true, spendFree_false, runModeq_idem]

/-- Settles O39: the first thing each of the three commands does is to clear STATUS, and neither NOP nor a STATUS write does
anything. -/
theorem faultLeavesWithTheNextCommand : Obligations.FaultLeavesWithTheNextCommand := fun s w =>
  ⟨exec_nop s, regWrite_offset .status w s, rfl, rfl, rfl⟩

/-! ### Steps -/

/-- Settles O45: the access is a CMD write, which starts the decoded command. -/
theorem stepRunsTheDecodedInstruction : Obligations.StepRunsTheDecodedInstruction := by
  intro s w rest i hpending hdecode
  calc step s
    _ = regWrite 32 0x10 w { s with pending := rest } := step_of_pending s _ rest hpending
    _ = startCommand w { s with pending := rest } := regWrite_cmd w _
    _ = exec i { s with pending := rest } := startCommand_ok _ hdecode

/-- Settles O46: the step runs DECODE, which over a held block is the block's instruction. -/
theorem stepRunsTheLoadedBlock : Obligations.StepRunsTheLoadedBlock := by
  intro s rest hpending hheld
  rw [stepRunsTheDecodedInstruction s 1 rest .decode hpending rfl]
  exact decodeRunsTheBlockInstruction { s with pending := rest } hheld

end Sys2Proof.Machine
end

section
/-! The texels of the eight modes (45_block_decoder.md R135 to R142): each lane is the rounded blend of its two widened
endpoints. Then the pseudo-instruction `solid` (30_encoding.md R74) and the rotations (R130). -/

namespace Sys2Proof.Machine

open Sys2Proof.Stated

/-! ### Lanes of a TEX word -/

theorem lane_eq_extract (w : Word) (c : Nat) : lane w c = (w.extractLsb' (8 * c) 8).toNat := by
  rw [lane, BitVec.extractLsb'_toNat]

theorem packTexel_extract_r (t : Lanes) : (packTexel t).extractLsb' 0 8 = t.r := by
  refine BitVec.eq_of_getLsbD_eq fun j hj => ?_
  grind [packTexel]

theorem packTexel_extract_g (t : Lanes) : (packTexel t).extractLsb' 8 8 = t.g := by
  refine BitVec.eq_of_getLsbD_eq fun j hj => ?_
  grind [packTexel]

theorem packTexel_extract_b (t : Lanes) : (packTexel t).extractLsb' 16 8 = t.b := by
  refine BitVec.eq_of_getLsbD_eq fun j hj => ?_
  grind [packTexel]

theorem packTexel_extract_a (t : Lanes) : (packTexel t).extractLsb' 24 8 = t.a := by
  refine BitVec.eq_of_getLsbD_eq fun j hj => ?_
  grind [packTexel]

/-- The bytes of a texel's TEX word (10_state.md R26). -/
theorem lanes_packTexel (t : Lanes) : lane (packTexel t) 0 = t.r.toNat ∧ lane (packTexel t) 1 = t.g.toNat
    ∧ lane (packTexel t) 2 = t.b.toNat ∧ lane (packTexel t) 3 = t.a.toNat := by
  simp only [lane_eq_extract, Nat.reduceMul, packTexel_extract_r, packTexel_extract_g, packTexel_extract_b,
    packTexel_extract_a, and_self]

/-- After a decode, texel `i` is what the mode made of it. -/
theorem texelIs_finishDecode {m : Mode} {f : Nat → Lanes} {s : State} {i : Fin 16} {r g b a : Nat} :
    texelIs (finishDecode m f s) i r g b a ↔
      (f i.val).r.toNat = r ∧ (f i.val).g.toNat = g ∧ (f i.val).b.toNat = b ∧ (f i.val).a.toNat = a := by
  obtain ⟨hr, hg, hb, ha⟩ := lanes_packTexel (f i.val)
  rw [texelIs, finishDecode_tex, texFile_getElem, hr, hg, hb, ha]

/-! ### Endpoints -/

/-- A field of a channel is inside its width, an absent one 0. -/
theorem getD_lt_of_fieldsFit {bits n : Nat} {xs : List Nat} (h : fieldsFit bits n xs = true) (j : Nat) :
    xs.getD j 0 < 2 ^ bits := by
  simp only [fieldsFit, Bool.and_eq_true, List.all_eq_true, decide_eq_true_eq] at h
  rw [List.getD_eq_getElem?_getD]
  cases hj : xs[j]? with
  | none => exact Nat.two_pow_pos bits
  | some x => exact h.2 x (List.mem_of_getElem? hj)

theorem toNat_expandByte {v bits pbc q : Nat} (hpbc : pbc ≤ 1) (hq : q ≤ 1) (h4 : 4 ≤ bits + pbc) (h8 : bits + pbc ≤ 8)
    (hv : v < 2 ^ bits) : (expandByte v bits pbc q).toNat = widen (bits + pbc) (withPBit v pbc q) := by
  obtain ⟨-, -, hbyte, hclosed⟩ := expandRepeatsTheTopBits v bits pbc q hpbc hq (by omega) h8 hv
  rw [expandByte, BitVec.toNat_ofNat, Nat.mod_eq_of_lt hbyte]
  exact hclosed h4

/-- An endpoint without p-bit, widened. -/
theorem toNat_expandByte_plain {bits n : Nat} {xs : List Nat} (hx : fieldsFit bits n xs = true) (h4 : 4 ≤ bits) (h8 : bits ≤ 8)
    (j : Nat) : (expandByte (xs.getD j 0) bits 0 0).toNat = widen bits (xs.getD j 0) :=
  toNat_expandByte (Nat.zero_le 1) (Nat.zero_le 1) h4 h8 (getD_lt_of_fieldsFit hx j)

/-- An endpoint with its p-bit, widened. -/
theorem toNat_expandByte_pbit {bits n k : Nat} {xs p : List Nat} (hx : fieldsFit bits n xs = true)
    (hp : fieldsFit 1 k p = true) (h3 : 3 ≤ bits) (h7 : bits ≤ 7) (j jp : Nat) :
    (expandByte (xs.getD j 0) bits 1 (p.getD jp 0)).toNat = widen (bits + 1) (2 * xs.getD j 0 + p.getD jp 0) :=
  toNat_expandByte le_rfl (Nat.le_of_lt_succ (getD_lt_of_fieldsFit hp jp)) (by omega) (by omega) (getD_lt_of_fieldsFit hx j)

/-- At precision 8 the endpoint is the raw field and its p-bit. -/
theorem toNat_expandByte_pbit_eight {n k : Nat} {xs p : List Nat} (hx : fieldsFit 7 n xs = true)
    (hp : fieldsFit 1 k p = true) (j jp : Nat) :
    (expandByte (xs.getD j 0) 7 1 (p.getD jp 0)).toNat = 2 * xs.getD j 0 + p.getD jp 0 := by
  have hx' := getD_lt_of_fieldsFit hx j
  have hp' := getD_lt_of_fieldsFit hp jp
  rw [toNat_expandByte_pbit hx hp (by decide) le_rfl, widen_eight (by omega)]

/-- A lane whose endpoints are known. -/
theorem toNat_interpolate_of {e0 e1 : Byte} {x0 x1 : Nat} (k w : Nat) (h0 : e0.toNat = x0) (h1 : e1.toNat = x1) :
    (interpolate e0 e1 k w).toNat = mix x0 x1 (weight w k) := by
  rw [toNat_interpolate_eq_mix, h0, h1]

section Lane
variable {bits n np : Nat} {xs p : List Nat} (hx : fieldsFit bits n xs = true) (hp : fieldsFit 1 np p = true)
include hx

/-- A lane of a mode without p-bits. -/
theorem lane_plain (h4 : 4 ≤ bits) (h8 : bits ≤ 8) (j0 j1 k w : Nat) :
    (interpolate (expandByte (xs.getD j0 0) bits 0 0) (expandByte (xs.getD j1 0) bits 0 0) k w).toNat =
      mix (widen bits (xs.getD j0 0)) (widen bits (xs.getD j1 0)) (weight w k) :=
  toNat_interpolate_of k w (toNat_expandByte_plain hx h4 h8 j0) (toNat_expandByte_plain hx h4 h8 j1)

include hp

/-- A lane of a mode with p-bits, those of its endpoints at `q0` and `q1`. -/
theorem lane_pbit (h3 : 3 ≤ bits) (h7 : bits ≤ 7) (j0 q0 j1 q1 k w : Nat) :
    (interpolate (expandByte (xs.getD j0 0) bits 1 (p.getD q0 0)) (expandByte (xs.getD j1 0) bits 1 (p.getD q1 0)) k
      w).toNat = mix (widen (bits + 1) (2 * xs.getD j0 0 + p.getD q0 0)) (widen (bits + 1) (2 * xs.getD j1 0 + p.getD q1 0))
        (weight w k) :=
  toNat_interpolate_of k w (toNat_expandByte_pbit hx hp h3 h7 j0 q0) (toNat_expandByte_pbit hx hp h3 h7 j1 q1)

end Lane

/-- A lane whose endpoints have precision 8 with their p-bits. -/
theorem lane_pbit_eight {n np : Nat} {xs p : List Nat} (hx : fieldsFit 7 n xs = true) (hp : fieldsFit 1 np p = true)
    (j0 j1 k w : Nat) :
    (interpolate (expandByte (xs.getD j0 0) 7 1 (p.getD j0 0)) (expandByte (xs.getD j1 0) 7 1 (p.getD j1 0)) k w).toNat =
      mix (2 * xs.getD j0 0 + p.getD j0 0) (2 * xs.getD j1 0 + p.getD j1 0) (weight w k) :=
  toNat_interpolate_of k w (toNat_expandByte_pbit_eight hx hp j0 j0) (toNat_expandByte_pbit_eight hx hp j1 j1)

/-- A texel after rotation, for each of the four rotations (45_block_decoder.md R130). -/
theorem texelIs_rotate {m : Mode} {f : Nat → Lanes} {s : State} {i : Fin 16} {l : Lanes} {rot r g b a : Nat}
    (hf : f i.val = rotate l rot) (hr : l.r.toNat = r) (hg : l.g.toNat = g) (hb : l.b.toNat = b) (ha : l.a.toNat = a) :
    (rot = 0 → texelIs (finishDecode m f s) i r g b a) ∧ (rot = 1 → texelIs (finishDecode m f s) i a g b r)
      ∧ (rot = 2 → texelIs (finishDecode m f s) i r a b g) ∧ (rot = 3 → texelIs (finishDecode m f s) i r g a b) := by
  refine ⟨?_, ?_, ?_, ?_⟩ <;> rintro rfl <;> rw [texelIs_finishDecode, hf]
  · exact ⟨hr, hg, hb, ha⟩
  · exact ⟨ha, hg, hb, hr⟩
  · exact ⟨hr, ha, hb, hg⟩
  · exact ⟨hr, hg, ha, hb⟩

/-- DECODE of the block that a well-formed instruction encodes ends as the instruction does. -/
theorem decodesTo_of_exec {i : Instr} {s t : State} (hlen : encodedLength i = 16) (hwf : i.wellFormed = true)
    (h : exec i s = .next t) : decodesTo i s t := by
  intro hheld hblk
  rw [decodeRunsTheBlockInstruction s hheld, hblk, decodeBlock_encodeBlock hlen hwf, h]

/-! ### The modes without alpha -/

/-- Settles O27: precision 5, each endpoint with its p-bit. -/
theorem mode0Texels : Obligations.Mode0Texels := by
  intro part r g b p idx s hwf
  have hfields := hwf
  simp only [Instr.wellFormed, Bool.and_eq_true] at hfields
  obtain ⟨⟨⟨⟨⟨-, hr⟩, hg⟩, hb⟩, hp⟩, -⟩ := hfields
  refine ⟨_, rfl, rfl, sameBesideStatusTex_finishDecode .., decodesTo_of_exec rfl hwf rfl, fun i => ?_⟩
  have hlane {xs : List Nat} (hx : fieldsFit 4 6 xs = true) := lane_pbit hx hp (by decide) (by decide)
  exact texelIs_finishDecode.mpr ⟨hlane hr _ _ _ _ _ _, hlane hg _ _ _ _ _ _, hlane hb _ _ _ _ _ _, rfl⟩

/-- Settles O28: precision 7, both endpoints of a subset with its shared p-bit. -/
theorem mode1Texels : Obligations.Mode1Texels := by
  intro part r g b p idx s hwf
  have hfields := hwf
  simp only [Instr.wellFormed, Bool.and_eq_true] at hfields
  obtain ⟨⟨⟨⟨⟨-, hr⟩, hg⟩, hb⟩, hp⟩, -⟩ := hfields
  refine ⟨_, rfl, rfl, sameBesideStatusTex_finishDecode .., decodesTo_of_exec rfl hwf rfl, fun i => ?_⟩
  have hfirst : 2 * partition 2 part i.val / 2 = partition 2 part i.val := by omega
  have hsecond : (2 * partition 2 part i.val + 1) / 2 = partition 2 part i.val := by omega
  have hlane {xs : List Nat} (hx : fieldsFit 6 4 xs = true) := lane_pbit hx hp (by decide) (by decide)
  simp only [texelIs_finishDecode, hfirst, hsecond]
  exact ⟨hlane hr _ _ _ _ _ _, hlane hg _ _ _ _ _ _, hlane hb _ _ _ _ _ _, rfl⟩

/-- Settles O29: precision 5 without p-bits. -/
theorem mode2Texels : Obligations.Mode2Texels := by
  intro part r g b idx s hwf
  have hfields := hwf
  simp only [Instr.wellFormed, Bool.and_eq_true] at hfields
  obtain ⟨⟨⟨⟨-, hr⟩, hg⟩, hb⟩, -⟩ := hfields
  refine ⟨_, rfl, rfl, sameBesideStatusTex_finishDecode .., decodesTo_of_exec rfl hwf rfl, fun i => ?_⟩
  have hlane {xs : List Nat} (hx : fieldsFit 5 6 xs = true) := lane_plain hx (by decide) (by decide)
  exact texelIs_finishDecode.mpr ⟨hlane hr _ _ _ _, hlane hg _ _ _ _, hlane hb _ _ _ _, rfl⟩

/-- Settles O30: precision 8, each endpoint with its p-bit. -/
theorem mode3Texels : Obligations.Mode3Texels := by
  intro part r g b p idx s hwf
  have hfields := hwf
  simp only [Instr.wellFormed, Bool.and_eq_true] at hfields
  obtain ⟨⟨⟨⟨⟨-, hr⟩, hg⟩, hb⟩, hp⟩, -⟩ := hfields
  refine ⟨_, rfl, rfl, sameBesideStatusTex_finishDecode .., decodesTo_of_exec rfl hwf rfl, fun i => ?_⟩
  exact texelIs_finishDecode.mpr
    ⟨lane_pbit_eight hr hp _ _ _ _, lane_pbit_eight hg hp _ _ _ _, lane_pbit_eight hb hp _ _ _ _, rfl⟩

/-! ### The modes with alpha -/

/-- Settles O31: the lanes before rotation are those of the planes that the index-selection bit picks. -/
theorem mode4Texels : Obligations.Mode4Texels := by
  intro rot isb r g b a idx idx2 s hwf
  have hfields := hwf
  simp only [Instr.wellFormed, Bool.and_eq_true] at hfields
  obtain ⟨⟨⟨⟨⟨⟨-, hr⟩, hg⟩, hb⟩, ha⟩, -⟩, -⟩ := hfields
  refine ⟨_, rfl, rfl, sameBesideStatusTex_finishDecode .., decodesTo_of_exec rfl hwf rfl, fun i => ?_⟩
  have hcolor {xs : List Nat} (hx : fieldsFit 5 2 xs = true) := lane_plain hx (by decide) (by decide)
  have halpha := lane_plain ha (by decide) (by decide)
  by_cases hisb : isb = 1
  · simp only [if_pos hisb]
    exact texelIs_rotate rfl (hcolor hr _ _ _ _) (hcolor hg _ _ _ _) (hcolor hb _ _ _ _) (halpha _ _ _ _)
  · simp only [if_neg hisb]
    exact texelIs_rotate rfl (hcolor hr _ _ _ _) (hcolor hg _ _ _ _) (hcolor hb _ _ _ _) (halpha _ _ _ _)

/-- Settles O32: colour at precision 7 and alpha as stored, each from its own plane. -/
theorem mode5Texels : Obligations.Mode5Texels := by
  intro rot r g b a idx idx2 s hwf
  have hfields := hwf
  simp only [Instr.wellFormed, Bool.and_eq_true] at hfields
  obtain ⟨⟨⟨⟨⟨⟨-, hr⟩, hg⟩, hb⟩, ha⟩, -⟩, -⟩ := hfields
  refine ⟨_, rfl, rfl, sameBesideStatusTex_finishDecode .., decodesTo_of_exec rfl hwf rfl, fun i => ?_⟩
  have hcolor {xs : List Nat} (hx : fieldsFit 7 2 xs = true) := lane_plain hx (by decide) (by decide)
  have hstored (j : Nat) : (expandByte (a.getD j 0) 8 0 0).toNat = a.getD j 0 :=
    (toNat_expandByte_plain ha (by decide) le_rfl j).trans (widen_eight (getD_lt_of_fieldsFit ha j))
  exact texelIs_rotate rfl (hcolor hr _ _ _ _) (hcolor hg _ _ _ _) (hcolor hb _ _ _ _)
    (toNat_interpolate_of _ _ (hstored 0) (hstored 1))

/-- Settles O33: precision 8 in all four lanes, from one plane. -/
theorem mode6Texels : Obligations.Mode6Texels := by
  intro r g b a p idx s hwf
  have hfields := hwf
  simp only [Instr.wellFormed, Bool.and_eq_true] at hfields
  obtain ⟨⟨⟨⟨⟨hr, hg⟩, hb⟩, ha⟩, hp⟩, -⟩ := hfields
  refine ⟨_, rfl, rfl, sameBesideStatusTex_finishDecode .., decodesTo_of_exec rfl hwf rfl, fun i => ?_⟩
  exact texelIs_finishDecode.mpr ⟨lane_pbit_eight hr hp _ _ _ _, lane_pbit_eight hg hp _ _ _ _,
    lane_pbit_eight hb hp _ _ _ _, lane_pbit_eight ha hp _ _ _ _⟩

/-- Settles O34: precision 6 in all four lanes, each endpoint with its p-bit. -/
theorem mode7Texels : Obligations.Mode7Texels := by
  intro part r g b a p idx s hwf
  have hfields := hwf
  simp only [Instr.wellFormed, Bool.and_eq_true] at hfields
  obtain ⟨⟨⟨⟨⟨⟨-, hr⟩, hg⟩, hb⟩, ha⟩, hp⟩, -⟩ := hfields
  refine ⟨_, rfl, rfl, sameBesideStatusTex_finishDecode .., decodesTo_of_exec rfl hwf rfl, fun i => ?_⟩
  have hlane {xs : List Nat} (hx : fieldsFit 5 4 xs = true) := lane_pbit hx hp (by decide) (by decide)
  exact texelIs_finishDecode.mpr ⟨hlane hr _ _ _ _ _ _, hlane hg _ _ _ _ _ _, hlane hb _ _ _ _ _ _, hlane ha _ _ _ _ _ _⟩

/-! ### The pseudo-instruction `solid` -/

/-- Two bytes agree in their low bit when their remainders modulo 2 do. -/
theorem mod_two_eq_iff (x y : Byte) : x.toNat % 2 = y.toNat % 2 ↔ x.getLsbD 0 = y.getLsbD 0 := by
  rw [← BitVec.testBit_toNat, ← BitVec.testBit_toNat, Nat.testBit_zero, Nat.testBit_zero, decide_eq_decide]
  omega

/-- A byte split into its high bits and its low bit expands to itself. -/
theorem expandByte_half (x : Byte) {q : Nat} (hq : x.toNat % 2 = q) : expandByte (x.toNat / 2) 7 1 q = x := by
  have hx := x.isLt
  refine BitVec.eq_of_toNat_eq ?_
  rw [toNat_expandByte le_rfl (by omega) (by decide) le_rfl (by omega)]
  change widen 8 (2 * (x.toNat / 2) + q) = x.toNat
  rw [widen_eight (by omega)]
  omega

/-- What `solid` expands to (30_encoding.md R74). -/
theorem solid_eq_some {r g b a : Byte} {i : Instr} (h : solid r g b a = some i) :
    (g.toNat % 2 = r.toNat % 2 ∧ b.toNat % 2 = r.toNat % 2 ∧ a.toNat % 2 = r.toNat % 2) ∧
      i = .bc7m6 [r.toNat / 2, r.toNat / 2] [g.toNat / 2, g.toNat / 2] [b.toNat / 2, b.toNat / 2] [a.toNat / 2, a.toNat / 2]
        [r.toNat % 2, r.toNat % 2] (List.replicate 16 0) := by
  unfold solid at h
  simp only [Option.ite_none_right_eq_some, Option.some.injEq] at h
  exact ⟨h.1, h.2.symm⟩

/-- The halves of a byte fit the 7-bit fields of mode 6. -/
theorem fieldsFit_half (x : Byte) : fieldsFit 7 2 [x.toNat / 2, x.toNat / 2] = true := by
  have hx := x.isLt
  have hhalf : x.toNat / 2 < 2 ^ 7 := by omega
  exact fieldsFit_iff.mpr (.cons hhalf (.cons hhalf .nil))

/-- Settles O35: both endpoints of the expansion are the colour, so every blend of them is. -/
theorem solidDecodesToItsColour : Obligations.SolidDecodesToItsColour := by
  intro r g b a s
  refine ⟨?wellFormed, fun i hi => ?decodes⟩
  case wellFormed =>
    simp only [← mod_two_eq_iff]
    unfold solid
    simp
  case decodes =>
    obtain ⟨⟨hg, hb, ha⟩, rfl⟩ := solid_eq_some hi
    refine ⟨?fits, _, rfl, rfl, fun j => ?texels⟩
    case fits =>
      have hlow : r.toNat % 2 < 2 ^ 1 := Nat.mod_lt _ (by decide)
      have hbit : fieldsFit 1 2 [r.toNat % 2, r.toNat % 2] = true := fieldsFit_iff.mpr (.cons hlow (.cons hlow .nil))
      have hplane : planeFits 1 0 4 (List.replicate 16 0) = true := by decide
      simp only [Instr.wellFormed, fieldsFit_half, hbit, hplane, Bool.and_self]
    case texels =>
      rw [finishDecode_tex, texFile_getElem]
      simp only [blend, alphaEndpoint, List.getD_cons_zero, List.getD_cons_succ, expandByte_half r rfl, expandByte_half g hg,
        expandByte_half b hb, expandByte_half a ha, interpolate_self, packTexel]

/-! ### Rotation -/

section OrBit
variable (blk : Block) {k : Nat} (hk : k < 128)
include hk

theorem getLsbD_or_bit (j : Nat) : (blk ||| (1 : Block) <<< k).getLsbD j = (blk.getLsbD j || decide (j = k)) := by
  have hbit : ((1 : Block) <<< k).getLsbD j = decide (j = k) := by
    change (1#128 <<< k).getLsbD j = _
    rw [← BitVec.twoPow_eq, BitVec.getLsbD_twoPow, decide_eq_true hk, Bool.true_and, decide_eq_decide, eq_comm]
  rw [BitVec.getLsbD_or, hbit]

/-- Setting one bit of a block leaves the fields above it alone. -/
theorem bitsAt_or_bit {q : Nat} (n : Nat) (h : k < q) : bitsAt (blk ||| (1 : Block) <<< k) q n = bitsAt blk q n := by
  refine Nat.eq_of_testBit_eq fun j => ?_
  have hne : q + j ≠ k := by omega
  rw [testBit_bitsAt, testBit_bitsAt, getLsbD_or_bit blk hk, decide_eq_false hne, Bool.or_false]

theorem fieldsAt_or_bit {q : Nat} (ws : List Nat) (h : k < q) :
    fieldsAt (blk ||| (1 : Block) <<< k) ws q = fieldsAt blk ws q := by
  induction ws generalizing q with
  | nil => rfl
  | cons w ws ih => rw [fieldsAt, fieldsAt, bitsAt_or_bit blk hk w h, ih (by omega)]

/-- Setting one bit of a block above its selector leaves its mode alone. -/
theorem lowestSetBit_or_bit {m : Mode} (h : m.val < k) (hm : lowestSetBit (byte0 blk) = some m) :
    lowestSetBit (byte0 (blk ||| (1 : Block) <<< k)) = some m := by
  rw [lowestSetBit_byte0] at hm ⊢
  obtain ⟨hset, hbelow⟩ := hm
  refine ⟨by rw [getLsbD_or_bit blk hk, hset, Bool.true_or], fun j hj => ?_⟩
  have hne : j ≠ k := by omega
  rw [getLsbD_or_bit blk hk, hbelow j hj, decide_eq_false hne, Bool.or_false]

/-- Setting the low bit of a zero field makes it 1. -/
theorem bitsAt_or_bit_self {n : Nat} (hn : 0 < n) (h : bitsAt blk k n = 0) : bitsAt (blk ||| (1 : Block) <<< k) k n = 1 := by
  refine Nat.eq_of_testBit_eq fun j => ?_
  have hzero : (decide (j < n) && blk.getLsbD (k + j)) = false := by rw [← testBit_bitsAt, h, Nat.zero_testBit]
  rw [testBit_bitsAt, getLsbD_or_bit blk hk, Bool.and_or_distrib_left, hzero, Bool.false_or]
  cases j with
  | zero => simp [hn]
  | succ j => simp [Nat.testBit_succ]

end OrBit

/-- Rotation comes last: a texel is the one of rotation 0, rotated. -/
theorem modeTexel_rot (m : Mode) (o : RawFields) (i : Nat) :
    modeTexel m o i = rotate (modeTexel m { o with rot := 0 } i) o.rot := rfl

/-- The operands of a block of a mode with rotation, once its rotation is set from 0 to 1. -/
theorem operandsAt_or_rotation (blk : Block) {m : Mode} (hpart : (modeTable m).partitionBits = 0)
    (hrot : (modeTable m).rotationBits = 2) (hzero : bitsAt blk (m.val + 1) 2 = 0) :
    operandsAt (blk ||| (1 : Block) <<< (m.val + 1)) (modeTable m) m = { operandsAt blk (modeTable m) m with rot := 1 } := by
  have hk : m.val + 1 < 128 := by omega
  have hred : m.val + 1 < redPos (modeTable m) m := by rw [redPos, hrot]; omega
  have hgreen : m.val + 1 < greenPos (modeTable m) m := hred.trans_le (Nat.le_add_right ..)
  have hblue : m.val + 1 < bluePos (modeTable m) m := hgreen.trans_le (Nat.le_add_right ..)
  have halpha : m.val + 1 < alphaPos (modeTable m) m := hblue.trans_le (Nat.le_add_right ..)
  have hpbit : m.val + 1 < pbitPos (modeTable m) m := halpha.trans_le (Nat.le_add_right ..)
  have hplane : m.val + 1 < planePos (modeTable m) m := hpbit.trans_le (Nat.le_add_right ..)
  have hsecond : m.val + 1 < secondPos (modeTable m) m := hplane.trans_le (Nat.le_add_right ..)
  have hnone (b : Block) : bitsAt b (m.val + 1) 0 = 0 := by simp [bitsAt, Nat.mod_one]
  simp only [operandsAt, planeAt, hpart, hrot, hnone, Nat.add_zero, bitsAt_or_bit_self blk hk (by decide) hzero,
    bitsAt_or_bit blk hk _ (show m.val + 1 < m.val + 1 + 2 by omega), fieldsAt_or_bit blk hk _ hred,
    fieldsAt_or_bit blk hk _ hgreen, fieldsAt_or_bit blk hk _ hblue, fieldsAt_or_bit blk hk _ halpha,
    fieldsAt_or_bit blk hk _ hpbit, fieldsAt_or_bit blk hk _ hplane, fieldsAt_or_bit blk hk _ hsecond]

/-- The rotations 0 and 1 of one block, for a mode whose rotation follows its selector. -/
theorem rotation_one_swaps {m : Mode} {s s' t t' : State} (hpart : (modeTable m).partitionBits = 0)
    (hrot : (modeTable m).rotationBits = 2) (hheld : blkHeld s = true) (hheld' : blkHeld s' = true)
    (hmode : matchesMode (blkValue s) m.val = true) (hzero : (blkValue s).extractLsb' (m.val + 1) 2 = 0)
    (hblk : blkValue s' = blkValue s ||| (1 : Block) <<< (m.val + 1)) (ht : exec .decode s = .next t)
    (ht' : exec .decode s' = .next t') (i : Fin 16) :
    lane t'.tex[i] 0 = lane t.tex[i] 3 ∧ lane t'.tex[i] 3 = lane t.tex[i] 0 ∧ lane t'.tex[i] 1 = lane t.tex[i] 1 ∧
      lane t'.tex[i] 2 = lane t.tex[i] 2 := by
  have hm := (matchesMode_iff_lowestSetBit _ m).mp hmode
  have hm' := lowestSetBit_or_bit (blkValue s) (k := m.val + 1) (by omega) (by omega) hm
  have hfield : bitsAt (blkValue s) (m.val + 1) 2 = 0 := by
    simpa [bitsAt, BitVec.extractLsb'_toNat] using congrArg BitVec.toNat hzero
  have hrun := (decodeRunsTheBlockInstruction s hheld).trans (exec_decodeBlock_of_mode hm s)
  have hrun' := decodeRunsTheBlockInstruction s' hheld'
  rw [hblk, exec_decodeBlock_of_mode hm', operandsAt_or_rotation _ hpart hrot hfield] at hrun'
  obtain rfl := Host.Outcome.next.inj (ht.symm.trans hrun)
  obtain rfl := Host.Outcome.next.inj (ht'.symm.trans hrun')
  have hrot0 : (operandsAt (blkValue s) (modeTable m) m).rot = 0 := by
    rw [operandsAt, hpart, hrot, Nat.add_zero, hfield]
  generalize operandsAt (blkValue s) (modeTable m) m = o at hrot0
  have hplain : modeTexel m o i.val = modeTexel m { o with rot := 0 } i.val := by rw [modeTexel_rot, hrot0]; rfl
  have hswapped : modeTexel m { o with rot := 1 } i.val = rotate (modeTexel m { o with rot := 0 } i.val) 1 := rfl
  rw [finishDecode_tex, finishDecode_tex, texFile_getElem, texFile_getElem, hplain, hswapped]
  generalize modeTexel m { o with rot := 0 } i.val = l
  obtain ⟨hr, hg, hb, ha⟩ := lanes_packTexel l
  obtain ⟨hr', hg', hb', ha'⟩ := lanes_packTexel (rotate l 1)
  rw [hr, hg, hb, ha, hr', hg', hb', ha']
  exact ⟨rfl, rfl, rfl, rfl⟩

/-- Settles O36: modes 4 and 5 have their rotation right above the selector. -/
theorem rotationOneSwapsRedAndAlpha : Obligations.RotationOneSwapsRedAndAlpha := by
  rintro s t s' t' hheld hheld' (⟨hmode, hzero, hblk⟩ | ⟨hmode, hzero, hblk⟩) ht ht'
  · exact rotation_one_swaps (m := 4) rfl rfl hheld hheld' hmode hzero hblk ht ht'
  · exact rotation_one_swaps (m := 5) rfl rfl hheld hheld' hmode hzero hblk ht ht'

end Sys2Proof.Machine
end

section
/-! The register block and host memory one access at a time (10_state.md R22, R27, 20_memory.md R44, R47), reset, and the
steps that run them. -/

namespace Sys2Proof.Machine

/-! ### Register reads -/

theorem regRead_blk_unheld {s : State} {k : Fin 4} (h : (getBlk s k).held = false) :
    regRead 32 (RegName.blk k).offset s = .next (Config.freeBlkWord s.freeUsed k) := by
  rw [regRead_offset, readReg, operandWord_unheld s k h]

theorem regRead_tex_valid {s : State} (i : Fin 16) (h : statusValid s.status = true) :
    regRead 32 (RegName.tex i).offset s = .next s.tex[i] := by
  rw [regRead_offset, readReg, if_pos h]

/-- Settles O42: each read is `readReg` of its register. -/
theorem registerReadsReturn : Obligations.RegisterReadsReturn := fun s =>
  ⟨regRead_offset .status s, regRead_offset .cmd s,
    fun k => ⟨fun h => by rw [regRead_offset, readReg, operandWord_held s k h], regRead_blk_unheld⟩,
    fun i => ⟨regRead_tex_valid i, regRead_tex_invalid i⟩⟩

/-! ### A core without values -/

/-- What a reset leaves of the core (10_state.md R36). -/
def NoValue (t : State) : Prop := t.status = 0 ∧ ∀ k : Fin 4, getBlk t k = BlkReg.empty

theorem noValue_resetCore (s : State) : NoValue (resetCore s) := ⟨rfl, fun k => by match k with | 0 | 1 | 2 | 3 => rfl⟩

theorem noValue_reset : NoValue State.reset := ⟨rfl, fun k => by match k with | 0 | 1 | 2 | 3 => rfl⟩

section NoValue
variable {t : State} (h : NoValue t)
include h

theorem NoValue.blk_held (k : Fin 4) : (getBlk t k).held = false := by rw [h.2]; rfl

theorem NoValue.statusValid : statusValid t.status = false := by rw [h.1]; rfl

theorem NoValue.statusModeValid : statusModeValid t.status = false := by rw [h.1]; rfl

/-- CMD and STATUS are the only registers whose read the spec then defines. -/
theorem NoValue.regDefined_iff (n : RegName) : regDefined t n = true ↔ n = .cmd ∨ n = .status := by
  cases n with
  | blk k => simp [regDefined, h.blk_held k]
  | cmd => simp [regDefined]
  | status => simp [regDefined]
  | tex i => simp [regDefined, h.statusValid]

theorem NoValue.accessDefined_regRead_iff (n : RegName) :
    accessDefined (.regRead 32 n.offset) t = true ↔ n = .cmd ∨ n = .status := by
  rw [accessDefined_regRead n 32 n.offset t (admitAccess_offset n), h.regDefined_iff]

/-- The CMD writes inside the contract are then all but DECODE and MODEQ (70_reset_and_hazards.md R184, R186). -/
theorem NoValue.accessDefined_wrCmd_iff (w : Word) : accessDefined (wrCmd w) t = true ↔ w ≠ 1 ∧ w ≠ 2 := by
  have hheld : blkHeld t = false := (blkHeld_eq_false t).mpr ⟨0, h.blk_held 0⟩
  have hheld0 : t.blk0.held = false := h.blk_held 0
  change commandDefined w t = true ↔ _
  rw [← Bool.not_eq_false, commandDefined_eq_false]
  simp [hheld, hheld0]

end NoValue

/-- Settles O48: the step resets the core, which then holds no value, as the reset state does. -/
theorem resetLeavesNoValue : Obligations.ResetLeavesNoValue := by
  intro s rest hpending
  have ht := noValue_resetCore { s with pending := rest }
  refine ⟨resetCore { s with pending := rest }, step_of_pending s _ rest hpending, rfl, rfl, fun n => ⟨?_, ?_⟩,
    fun k => ⟨regRead_blk_unheld (ht.blk_held k), regRead_blk_unheld (noValue_reset.blk_held k)⟩,
    fun i => ⟨regRead_tex_invalid i ht.statusValid, regRead_tex_invalid i noValue_reset.statusValid⟩,
    ht.accessDefined_regRead_iff, ht.accessDefined_wrCmd_iff, fun k v => accessDefined_wrBlk k v _, rfl, fun a => rfl⟩
  · rw [Bool.eq_iff_iff, ht.regDefined_iff, noValue_reset.regDefined_iff]
  · exact noValue_reset.regDefined_iff n

/-! ### Steps -/

/-- Settles O47: no access is pending. -/
theorem idleStepHoldsTheState : Obligations.IdleStepHoldsTheState := by
  intro s hidle
  rw [step, hidle]

/-- What a register holds does not depend on the host's own state, but a free value on the counter. -/
theorem readReg_congr {s t : State} (hblk : sameBlk s t) (hstatus : t.status = s.status) (htex : t.tex = s.tex)
    (hfree : t.freeUsed = s.freeUsed) (n : RegName) : readReg t n = readReg s n := by
  cases n with
  | blk k => exact operandWord_congr hblk hfree k
  | cmd => rfl
  | status => exact hstatus
  | tex i => simp only [readReg, hstatus, htex, hfree]

/-- A step that reads a register hands over its value, and spends a free value where the spec defines none. -/
theorem step_regRead {s : State} {n : RegName} {rest : List HostAccess} (h : s.pending = .regRead 32 n.offset :: rest) :
    step s = .next (spendFree (!regDefined s n) { s with pending := rest, readData := some (readReg s n) }) := by
  have hfree : readIsFree 32 n.offset { s with pending := rest } = !regDefined s n := by
    rw [readIsFree, admitAccess_offset]
    rfl
  rw [step_of_pending s _ rest h, runAccess, regRead_offset, andThen_next, hfree]
  rfl

/-- A step that reads a byte of host memory that is present hands it over. -/
theorem step_memRead {s : State} {a : Nat} {b : Byte} {rest : List HostAccess} (h : s.pending = .memRead a :: rest)
    (hb : Memory.read s.mem a = some b) : step s = .next { s with pending := rest, readData := some (b.setWidth 32) } := by
  rw [step_of_pending s _ rest h, runAccess, (readByte_eq_next s.mem a b).mpr hb, andThen_next]

/-- Of a byte that nothing stored it stops (log entry 4). -/
theorem step_memRead_unset {s : State} {a : Nat} {rest : List HostAccess} (h : s.pending = .memRead a :: rest)
    (hb : Memory.read s.mem a = none) : step s = .fault (.hostByteUnset a) := by
  rw [step_of_pending s _ rest h, runAccess, readByte]
  simp [hb]

/-- Settles O51: a read only hands its value over and, where the spec defines none, moves the counter. -/
theorem readsHaveNoSideEffect : Obligations.ReadsHaveNoSideEffect := by
  refine ⟨?register, ?memory⟩
  case register =>
    intro s n rest hpending
    refine ⟨_, readReg s n, step_regRead hpending, rfl, regRead_offset n s, ⟨rfl, rfl, rfl, rfl⟩, rfl, rfl, fun _ => rfl, rfl,
      rfl, ?defined, ?free, ?contract⟩
    case defined =>
      intro hdefined
      simp only [hdefined, Bool.not_true, spendFree_false, true_and, regRead_offset]
      exact congrArg Host.Outcome.next (readReg_congr ⟨rfl, rfl, rfl, rfl⟩ rfl rfl rfl n)
    case free =>
      intro hfree
      simp [hfree]
    case contract =>
      rw [contractStep, hpending]
      simp only [accessDefined_regRead n 32 n.offset s (admitAccess_offset n)]
  case memory =>
    intro s a rest hpending
    exact ⟨fun b hb => ⟨_, step_memRead hpending hb, rfl, ⟨rfl, rfl, rfl, rfl⟩, rfl, rfl, rfl, rfl, rfl, rfl⟩,
      step_memRead_unset hpending⟩

/-- Settles O52: the stored bytes read back at their addresses and nowhere else. -/
theorem storeAccessWritesItsBytes : Obligations.StoreAccessWritesItsBytes := by
  intro s a bytes rest hpending
  refine ⟨_, step_of_pending s _ rest hpending, fun j hj => ?_, fun x hx => Memory.read_writeBytes_outside bytes s.mem a x hx,
    ⟨rfl, rfl, rfl, rfl⟩, rfl, rfl, rfl, rfl, rfl, rfl⟩
  rw [List.getElem?_eq_getElem hj]
  exact Memory.read_writeBytes_inside bytes s.mem a j hj

/-- Settles O60: each access is one case of `runAccess`. -/
theorem stepRunsTheAccess : Obligations.StepRunsTheAccess := by
  intro s rest
  refine ⟨fun _ _ _ h => step_of_pending s _ rest h, ?regRead, fun _ _ _ h => step_of_pending s _ rest h,
    fun _ h => step_of_pending s _ rest h, fun _ h => step_of_pending s _ rest h⟩
  case regRead =>
    intro bits off hpending
    have hsame : regRead bits off { s with pending := rest } = regRead bits off s := rfl
    refine ⟨fun v hv => ?reads, fun e he => ?refuses⟩
    case reads =>
      rw [step_of_pending s _ rest hpending, runAccess, hsame, hv, andThen_next]
      exact ⟨_, rfl, rfl, rfl⟩
    case refuses => rw [step_of_pending s _ rest hpending, runAccess, hsame, he, andThen_refused]

end Sys2Proof.Machine
end

section
/-! The host functions of 46_host_interface.md: the argument checks (R145 to R147, R153), the formats that fail (R154, R158), and
where a BC7 decode writes (R150, R155, R160). -/

namespace Sys2Proof.Machine

open Sys2Proof.Stated

/-! ### Argument checks -/

theorem callOutputSize_fits {bits w h : Nat} {f : FormatArg} (s : State) (hfit : sizesFit bits w h = true) :
    callOutputSize bits f w h s = .next (returnCall (.size (outputSize (formatOf f) w h)) s) := by
  simp [callOutputSize, hfit]

/-- Settles O53: the product of the format, returned by a call that only returns. -/
theorem outputSizeReturnsTheProduct : Obligations.OutputSizeReturnsTheProduct := by
  intro bits f w h s
  refine ⟨fun hfit => ⟨_, _, callOutputSize_fits s hfit, onlyResult_returnCall s _, ?bc7, ?bc6h, ?unknown⟩,
    sizesFit_eq_true bits w h, fun hwide => by simp [callOutputSize, hwide]⟩
  case bc7 => intro hf; rw [hf]; rfl
  case bc6h => rintro (hf | hf) <;> rw [hf] <;> rfl
  case unknown => intro hf; rw [hf]; rfl

/-- An empty image has no bytes in any format (46_host_interface.md R147). -/
theorem outputSize_empty (t : FormatTag) {w h : Nat} (hempty : w = 0 ∨ h = 0) : outputSize t w h = 0 := by
  obtain rfl | rfl := hempty <;> cases t <;> simp [outputSize]

/-- Settles O54: each refusal is one check of the call, taken once those before it pass. -/
theorem decodeCallRefusals : Obligations.DecodeCallRefusals := by
  intro bits args s
  refine ⟨fun hwide => by simp [callDecode, hwide], argsFit_eq_true bits args,
    fun hfit hempty => by simp [callDecode, hfit, hempty], fun hfit hw hh hsmall => by simp [callDecode, hfit, hw, hh, hsmall], ?emptySize, ?blockMode⟩
  case emptySize =>
    intro f w h hfit hempty
    refine ⟨_, callOutputSize_fits s hfit, ?_⟩
    rw [returnCall_callResult, outputSize_empty _ hempty]
  case blockMode =>
    intro query hwide
    have hfit : bufferFits bits query.srcSize = false := by
      rw [← Bool.not_eq_true, bufferFits_eq_true]
      exact Nat.not_lt.mpr hwide
    simp [callBlockMode, hfit]

/-! ### The formats that fail -/

/-- An admitted call is the dispatch on its format. -/
theorem callDecode_admitted {bits : Nat} {args : DecodeArgs} {f : FormatTag} (s : State) (h : admitted bits args f) :
    callDecode bits args s = decodeDispatch f args s := by
  obtain ⟨rfl, hfit, hw, hh, hdst⟩ := h
  exact callDecode_eq_dispatch bits args s hfit hw hh hdst

/-- A BC7 call with too small a source span returns failure and does nothing else (46_host_interface.md R152). -/
theorem decodeBc7_of_shortSource {args : DecodeArgs} (s : State)
    (h : args.srcSize < 16 * blocksAcross args.width * blocksAcross args.height) :
    decodeBc7 args s = .next (returnCall (.decode false) s) := by
  simp [decodeBc7, h]

/-- Settles O55: two formats only return, the unknown one stores its destination first. -/
theorem failingFormatsTouchNothing : Obligations.FailingFormatsTouchNothing := by
  intro bits args s
  refine ⟨?bc6h, ?unknown, ?shortSource⟩
  case bc6h =>
    rintro (h | h)
    · exact ⟨_, callDecode_admitted s h, onlyResult_returnCall s _⟩
    · exact ⟨_, callDecode_admitted s h, onlyResult_returnCall s _⟩
  case unknown =>
    intro h
    refine ⟨_, callDecode_admitted s h, rfl, ⟨rfl, rfl, rfl, rfl⟩, rfl, rfl, fun a ha => ?_⟩
    exact Memory.read_writeBytes_outside _ _ _ _ (by simpa using ha)
  case shortSource =>
    intro h hshort
    exact ⟨_, (callDecode_admitted s h).trans (decodeBc7_of_shortSource s hshort), onlyResult_returnCall s _⟩

/-! ### Pass 2, one access at a time -/

/-- A step of `loadBlock` stores a word of host memory in the next BLK register. -/
theorem loadBlock_cons_next {a : Nat} {k : Fin 4} {ks : List Nat} {s t : State} (h : loadBlock a (k.val :: ks) s = .next t) :
    ∃ w, loadBlock a ks (setBlk s k w) = .next t := by
  rw [loadBlock, andThen_eq_next] at h
  obtain ⟨v, -, h⟩ := h
  have hwrite : regWrite 32 (4 * k.val) (BitVec.ofNat 32 v) s = .next (setBlk s k (BitVec.ofNat 32 v)) :=
    regWrite_offset (.blk k) _ s
  rw [hwrite, andThen_next] at h
  exact ⟨_, h⟩

/-- The four BLK writes of a block, whatever the words. -/
theorem loadBlock_next {a : Nat} {s t : State} (h : loadBlock a [0, 1, 2, 3] s = .next t) :
    ∃ w0 w1 w2 w3, t = setBlk (setBlk (setBlk (setBlk s 0 w0) 1 w1) 2 w2) 3 w3 := by
  obtain ⟨w0, h⟩ := loadBlock_cons_next (k := 0) h
  obtain ⟨w1, h⟩ := loadBlock_cons_next (k := 1) h
  obtain ⟨w2, h⟩ := loadBlock_cons_next (k := 2) h
  obtain ⟨w3, h⟩ := loadBlock_cons_next (k := 3) h
  exact ⟨w0, w1, w2, w3, (Host.Outcome.next.inj h).symm⟩

/-- A CMD write of DECODE over held words. -/
theorem regWrite_decode {s : State} (h : blkHeld s = true) : regWrite 32 0x10 1 s = .next (runDecode modeTable s) := by
  calc regWrite 32 0x10 1 s
    _ = startCommand 1 s := regWrite_cmd 1 s
    _ = exec .decode s := startCommand_ok s rfl
    _ = .next (runDecode modeTable s) := execDecode_held s h

theorem regRead_status (s : State) : regRead 32 0x14 s = .next s.status := regRead_offset .status s

/-- What pass 2 of a decode keeps: a property that the BLK writes, a DECODE over held words and a pixel write inside the image
keep (46_host_interface.md R155). -/
structure KeptByPass2 (args : DecodeArgs) (P : State → Prop) : Prop where
  load : ∀ s k w, P s → P (setBlk s k w)
  decode : ∀ s, blkHeld s = true → P s → P (runDecode modeTable s)
  pixel : ∀ s (px : Nat × Nat) w, px.1 < args.width → px.2 < args.height → P s →
    P { s with mem := memWriteWord s.mem (pixelAddr args.dst args.width px) w }

section KeptByPass2
variable {args : DecodeArgs} {P : State → Prop} (hP : KeptByPass2 args P)
include hP

theorem KeptByPass2.storeTexels {at' : Nat × Nat} {is : List Nat} {s t : State}
    (h : storeTexels args at' is s = .next t) (hs : P s) : P t := by
  induction is generalizing s with
  | nil => cases h; exact hs
  | cons i is ih =>
    rw [Machine.storeTexels, andThen_eq_next] at h
    obtain ⟨w, -, h⟩ := h
    simp only at h
    split_ifs at h with hinside
    · exact ih h (hP.pixel s _ w hinside.1 hinside.2 hs)
    · exact ih h hs

theorem KeptByPass2.decodeOne {at' : Nat × Nat} {s : State} {q : State × Bool}
    (h : decodeOne args at' s = .next q) (hs : P s) : P q.1 := by
  rw [Machine.decodeOne, andThen_eq_next] at h
  obtain ⟨s1, hload, h⟩ := h
  obtain ⟨w0, w1, w2, w3, rfl⟩ := loadBlock_next hload
  have hheld : blkHeld (setBlk (setBlk (setBlk (setBlk s 0 w0) 1 w1) 2 w2) 3 w3) = true := rfl
  have hloaded : P (setBlk (setBlk (setBlk (setBlk s 0 w0) 1 w1) 2 w2) 3 w3) :=
    hP.load _ _ _ (hP.load _ _ _ (hP.load _ _ _ (hP.load _ _ _ hs)))
  generalize setBlk (setBlk (setBlk (setBlk s 0 w0) 1 w1) 2 w2) 3 w3 = s1 at h hheld hloaded
  rw [regWrite_decode hheld, andThen_next, regRead_status, andThen_next] at h
  have hdecoded := hP.decode s1 hheld hloaded
  split_ifs at h with hfault
  · cases h; exact hdecoded
  · rw [andThen_eq_next] at h
    obtain ⟨s3, hstore, h⟩ := h
    cases h
    exact hP.storeTexels hstore hdecoded

theorem KeptByPass2.decodeGrid {blocks : List (Nat × Nat)} {s : State} {q : State × Bool}
    (h : decodeGrid args blocks s = .next q) (hs : P s) : P q.1 := by
  induction blocks generalizing s with
  | nil => cases h; exact hs
  | cons at' rest ih =>
    rw [Machine.decodeGrid, andThen_eq_next] at h
    obtain ⟨q', hone, h⟩ := h
    have hq' := hP.decodeOne hone hs
    split_ifs at h with hgoesOn
    · exact ih h hq'
    · cases h; exact hq'

end KeptByPass2

/-! ### Where a decode writes -/

/-- A pixel inside the image lies inside its `width * height * 4` bytes (46_host_interface.md R150). -/
theorem pixelAddr_bounds {dst width height : Nat} {px : Nat × Nat} (hx : px.1 < width) (hy : px.2 < height) :
    dst ≤ pixelAddr dst width px ∧ pixelAddr dst width px + 4 ≤ dst + width * height * 4 := by
  have hrow : px.2 * width + width ≤ width * height :=
    calc px.2 * width + width
      _ = (px.2 + 1) * width := by rw [Nat.succ_mul]
      _ ≤ height * width := Nat.mul_le_mul_right width hy
      _ = width * height := Nat.mul_comm ..
  unfold pixelAddr
  omega

/-- The address lies outside the image of a call. -/
def OutsideImage (args : DecodeArgs) (a : Nat) : Prop := a < args.dst ∨ args.dst + args.width * args.height * 4 ≤ a

/-- A pixel write leaves every address outside the image alone. -/
theorem pixelWrite_outside {args : DecodeArgs} {a : Nat} (ha : OutsideImage args a) (m : Memory) {px : Nat × Nat} (w : Word)
    (hx : px.1 < args.width) (hy : px.2 < args.height) :
    Memory.read (memWriteWord m (pixelAddr args.dst args.width px) w) a = Memory.read m a := by
  obtain ⟨hlow, hhigh⟩ := pixelAddr_bounds (dst := args.dst) hx hy
  refine memWriteWord_outside m _ a w ?_
  obtain h | h := ha <;> omega

/-- DECODE does not touch host memory. -/
theorem runDecode_mem (s : State) : (runDecode modeTable s).mem = s.mem := by
  obtain ⟨-, hrun⟩ | ⟨m, -, hrun⟩ := runDecode_modeTable_cases s <;> rw [hrun]
  · rfl
  · rw [finishDecode_mem]

/-- Pass 2 leaves a byte outside the image as it is. -/
theorem keptByPass2_outside {args : DecodeArgs} {a : Nat} (ha : OutsideImage args a) (b : Option Byte) :
    KeptByPass2 args fun s => Memory.read s.mem a = b where
  load s k w h := by rwa [setBlk_mem]
  decode s _ h := by rwa [runDecode_mem]
  pixel s px w hx hy h := (pixelWrite_outside ha s.mem w hx hy).trans h

/-- The blocks of the image of a call, in the order pass 2 decodes them (46_host_interface.md R155). -/
def imageGrid (args : DecodeArgs) : List (Nat × Nat) := blockGrid (blocksAcross args.width) (blocksAcross args.height)

/-- The two ways a BC7 `decode` returns: at once with failure, or after pass 2 with its source span unchanged. -/
theorem decodeBc7_next {args : DecodeArgs} {s t : State} (h : decodeBc7 args s = .next t) :
    t = returnCall (.decode false) s ∨
    ∃ q, decodeGrid args (imageGrid args) s = .next q
      ∧ Memory.span q.1.mem args.src (sourceBytes args.width args.height) =
        Memory.span s.mem args.src (sourceBytes args.width args.height)
      ∧ t = returnCall (.decode q.2) q.1 := by
  simp only [decodeBc7] at h
  split_ifs at h with hshort
  · cases h; exact .inl rfl
  · rw [andThen_eq_next] at h
    obtain ⟨reserved, -, h⟩ := h
    split_ifs at h with hreserved
    · cases h; exact .inl rfl
    · rw [andThen_eq_next] at h
      obtain ⟨q, hgrid, h⟩ := h
      split_ifs at h with hspan
      cases h
      exact .inr ⟨q, hgrid, hspan, rfl⟩

/-- Two equal spans agree byte by byte. -/
theorem span_eq_iff {m m' : Memory} {a n : Nat} :
    Memory.span m a n = Memory.span m' a n ↔ ∀ j, j < n → Memory.read m (a + j) = Memory.read m' (a + j) := by
  simp [Memory.span, List.map_inj_left]

/-- Settles O57: pass 2 writes pixels inside the image only, and a call that changed its source is refused. -/
theorem decodeWritesInsideTheImageOnly : Obligations.DecodeWritesInsideTheImageOnly := by
  intro bits args s t hformat h a ha
  obtain ⟨-, -, -, -, hdispatch⟩ := callDecode_next_dispatch bits args s t h
  rw [hformat] at hdispatch
  obtain rfl | ⟨q, hgrid, hspan, rfl⟩ := decodeBc7_next hdispatch
  · rfl
  · obtain houtside | ⟨hlow, hhigh⟩ := ha
    · exact (keptByPass2_outside houtside _).decodeGrid hgrid rfl
    · have hbyte := span_eq_iff.mp hspan (a - args.src) (by unfold sourceBytes blocksAcross; omega)
      rwa [Nat.add_sub_cancel' hlow] at hbyte

end Sys2Proof.Machine
end

section
/-! A BC7 decode that succeeds (46_host_interface.md R150, R151, R155): every block loaded, decoded and stored, and every pixel
that a block shows kept by the blocks after it. -/

namespace Sys2Proof.Machine

open Sys2Proof.Stated

/-! ### Loading and decoding one block -/

/-- The block at address `a` of host memory. -/
def BlockAt (m : Memory) (a : Nat) (blk : Block) : Prop :=
  ∀ j, j < 16 → Memory.read m (a + j) = some (blk.extractLsb' (8 * j) 8)

/-- Word `k` of a block in memory, as a BLK write takes it (46_host_interface.md R156). -/
theorem BlockAt.memRead {m : Memory} {a : Nat} {blk : Block} (h : BlockAt m a blk) (k : Fin 4) :
    memRead m (a + 4 * k.val) 4 = .next (blk.extractLsb' (32 * k.val) 32).toNat := by
  refine memRead_word fun j hj => ?_
  have hbyte : (blk.extractLsb' (32 * k.val) 32).extractLsb' (8 * j) 8 = blk.extractLsb' (8 * (4 * k.val + j)) 8 := by
    refine BitVec.eq_of_getLsbD_eq fun b hb => ?_
    grind
  rw [hbyte, Nat.add_assoc]
  exact h (4 * k.val + j) (by omega)

/-- The four BLK writes of a block in memory leave the block in BLK. -/
theorem loadBlock_present {s : State} {a : Nat} {blk : Block} (h : BlockAt s.mem a blk) :
    loadBlock a [0, 1, 2, 3] s = .next (loadBlk blk s) := by
  have hload (k : Fin 4) (ks : List Nat) (u : State) (hmem : u.mem = s.mem) :
      loadBlock a (k.val :: ks) u = loadBlock a ks (setBlk u k (blk.extractLsb' (32 * k.val) 32)) := by
    rw [loadBlock, hmem, h.memRead k, andThen_next, BitVec.ofNat_toNat, BitVec.setWidth_eq]
    exact congrArg (andThen · _) (regWrite_offset (.blk k) _ u)
  rw [show ([0, 1, 2, 3] : List Nat) = [(0 : Fin 4).val, (1 : Fin 4).val, (2 : Fin 4).val, (3 : Fin 4).val] from rfl,
    hload 0 _ s rfl, hload 1 _ _ (by simp), hload 2 _ _ (by simp), hload 3 _ _ (by simp)]
  rfl

theorem blkHeld_loadBlk (blk : Block) (s : State) : blkHeld (loadBlk blk s) = true := rfl

theorem blkValue_loadBlk (blk : Block) (s : State) : blkValue (loadBlk blk s) = blk := by
  refine BitVec.eq_of_getLsbD_eq fun j hj => ?_
  grind [blkValue, loadBlk]

/-- The TEX file that a DECODE of a block with a mode writes. -/
def blockTex (blk : Block) : TexFile :=
  texFile (((lowestSetBit (byte0 blk)).map fun m => modeTexel m (operandsAt blk (modeTable m) m)).getD fun _ => ⟨0, 0, 0, 0⟩)

/-- The instruction of a block that is not reserved writes TEX and a STATUS with VALID. -/
theorem exec_decodeBlock_tex {blk : Block} (h : byte0 blk ≠ 0) (s : State) :
    ∃ u m, exec (decodeBlock blk) s = .next u ∧ u.tex = blockTex blk ∧ u.status = decodedStatus m ∧ u.mem = s.mem := by
  obtain ⟨m, hm⟩ := exists_lowestSetBit h
  refine ⟨_, m, exec_decodeBlock_of_mode hm s, ?_, finishDecode_status .., finishDecode_mem ..⟩
  rw [finishDecode_tex, blockTex, hm]
  rfl

/-! ### Storing the texels of one block -/

/-- The word of host memory at `a`, read byte by byte. -/
def WordAt (m : Memory) (a : Nat) (w : Word) : Prop := ∀ c, c < 4 → Memory.read m (a + c) = some (w.extractLsb' (8 * c) 8)

/-- Byte `j` of a value's bytes. -/
theorem bytesOfNat_getElem (n v j : Nat) (h : j < (bytesOfNat n v).length) :
    (bytesOfNat n v)[j] = BitVec.ofNat 8 (v / 256 ^ j) := by
  induction n generalizing v j with
  | zero => simp [bytesOfNat] at h
  | succ n ih =>
    cases j with
    | zero => simp [bytesOfNat]
    | succ j =>
      have hj : j < (bytesOfNat n (v / 256)).length := by simpa using h
      simp only [bytesOfNat, List.getElem_cons_succ, ih (v / 256) j hj, Nat.div_div_eq_div_mul, Nat.pow_succ']

theorem wordAt_memWriteWord (m : Memory) (a : Nat) (w : Word) : WordAt (memWriteWord m a w) a w := by
  intro c hc
  rw [memWriteWord, Memory.read_writeBytes_inside _ m a c (by simpa using hc), bytesOfNat_getElem]
  refine congrArg some (BitVec.eq_of_toNat_eq ?_)
  rw [BitVec.toNat_ofNat, BitVec.extractLsb'_toNat, Nat.shiftRight_eq_div_pow, Nat.pow_mul]

/-- The two pixels have no byte in common. -/
theorem pixelAddr_disjoint {dst width : Nat} {px px' : Nat × Nat} (hx : px.1 < width) (hx' : px'.1 < width) (hne : px ≠ px') :
    pixelAddr dst width px + 4 ≤ pixelAddr dst width px' ∨ pixelAddr dst width px' + 4 ≤ pixelAddr dst width px := by
  have hindex : px.2 * width + px.1 ≠ px'.2 * width + px'.1 := by
    intro heq
    have hw : 0 < width := by omega
    have hrow : px.2 = px'.2 := by
      have := congrArg (· / width) heq
      simpa [Nat.mul_comm _ width, Nat.mul_add_div hw, Nat.div_eq_of_lt hx, Nat.div_eq_of_lt hx'] using this
    rw [hrow] at heq
    exact hne (Prod.ext (by omega) hrow)
  unfold pixelAddr
  omega

/-- The pixel lies in the image of a call (46_host_interface.md R151). -/
def InImage (args : DecodeArgs) (px : Nat × Nat) : Prop := px.1 < args.width ∧ px.2 < args.height

/-- The pixel of the destination image holds this TEX word. -/
def PixelIs (args : DecodeArgs) (m : Memory) (px : Nat × Nat) (w : Word) : Prop :=
  WordAt m (pixelAddr args.dst args.width px) w

/-- The pixels of the image that are not among those written hold in `m'` what they hold in `m`. -/
def KeepsPixels (args : DecodeArgs) (written : List (Nat × Nat)) (m m' : Memory) : Prop :=
  ∀ px w, InImage args px → px ∉ written → PixelIs args m px w → PixelIs args m' px w

/-- The pixels of the sixteen texels of a block (46_host_interface.md R150). -/
def blockPixels (at' : Nat × Nat) : List (Nat × Nat) := (List.range 16).map (pixelOf at')

/-- A pixel write leaves the word at another pixel alone. -/
theorem PixelIs.pixelWrite {args : DecodeArgs} {m : Memory} {px px' : Nat × Nat} {w : Word} (h : PixelIs args m px w)
    (hpx : InImage args px) (hpx' : InImage args px') (hne : px ≠ px') (v : Word) :
    PixelIs args (memWriteWord m (pixelAddr args.dst args.width px') v) px w := by
  intro c hc
  have hdisjoint := pixelAddr_disjoint (dst := args.dst) hpx.1 hpx'.1 hne
  rw [memWriteWord_outside _ _ _ _ (by omega)]
  exact h c hc

/-- A pixel is one texel of one block (46_host_interface.md R150). -/
theorem pixelOf_inj {at' bt : Nat × Nat} {i j : Nat} (hi : i < 16) (hj : j < 16) (h : pixelOf at' i = pixelOf bt j) :
    at' = bt ∧ i = j := by
  obtain ⟨hx, hy⟩ := Prod.mk.inj h
  exact ⟨Prod.ext (by omega) (by omega), by omega⟩

theorem regRead_texel {s : State} {i : Nat} (hi : i < 16) (hvalid : statusValid s.status = true) :
    regRead 32 (0x20 + 4 * i) s = .next s.tex[Fin.ofNat 16 i] := by
  have hoffset : RegName.offset (.tex (Fin.ofNat 16 i)) = 0x20 + 4 * i := by
    rw [RegName.offset, Fin.val_ofNat, Nat.mod_eq_of_lt hi]
  rw [← hoffset, regRead_tex_valid (Fin.ofNat 16 i) hvalid]

/-- While VALID is 1 the texels of a list are stored, clipped to the image, and every other pixel stays. -/
theorem storeTexels_valid {args : DecodeArgs} {at' : Nat × Nat} {is : List Nat} {s : State} (his : ∀ i ∈ is, i < 16)
    (hvalid : statusValid s.status = true) :
    ∃ t, storeTexels args at' is s = .next t
      ∧ KeepsPixels args (is.map (pixelOf at')) s.mem t.mem
      ∧ ∀ i ∈ is, InImage args (pixelOf at' i) → PixelIs args t.mem (pixelOf at' i) s.tex[Fin.ofNat 16 i] := by
  induction is generalizing s with
  | nil => exact ⟨s, rfl, fun _ _ _ _ h => h, nofun⟩
  | cons i rest ih =>
    have hi : i < 16 := his i List.mem_cons_self
    have hrest : ∀ j ∈ rest, j < 16 := fun j hj => his j (List.mem_cons_of_mem i hj)
    rw [storeTexels, regRead_texel hi hvalid, andThen_next]
    by_cases hin : InImage args (pixelOf at' i)
    · obtain ⟨t, ht, hother, hstored⟩ := ih (s := { s with
        mem := memWriteWord s.mem (pixelAddr args.dst args.width (pixelOf at' i)) s.tex[Fin.ofNat 16 i] }) hrest hvalid
      refine ⟨t, (if_pos hin).trans ht, ?keeps, ?stores⟩
      case keeps =>
        intro px w hpx hnot hword
        obtain ⟨hne, hnotRest⟩ := List.ne_and_not_mem_of_not_mem_cons hnot
        exact hother px w hpx hnotRest (hword.pixelWrite hpx hin hne _)
      case stores =>
        intro j hj hjin
        by_cases hjRest : j ∈ rest
        · exact hstored j hjRest hjin
        · obtain rfl : j = i := (List.mem_cons.mp hj).resolve_right hjRest
          refine hother _ _ hin ?notWritten (wordAt_memWriteWord _ _ _)
          intro hmem
          obtain ⟨k, hk, heq⟩ := List.mem_map.mp hmem
          exact hjRest ((pixelOf_inj (hrest k hk) hi heq).2 ▸ hk)
    · obtain ⟨t, ht, hother, hstored⟩ := ih hrest hvalid
      refine ⟨t, (if_neg hin).trans ht, ?keeps, ?stores⟩
      case keeps =>
        exact fun px w hpx hnot => hother px w hpx (List.not_mem_of_not_mem_cons hnot)
      case stores =>
        intro j hj hjin
        obtain rfl | hjRest := List.mem_cons.mp hj
        · exact absurd hjin hin
        · exact hstored j hjRest hjin

/-- One block of pass 2, present in memory and not reserved: its pixels are stored, the others stay. -/
theorem decodeOne_present {args : DecodeArgs} {at' : Nat × Nat} {blk : Block} {s : State}
    (hblk : BlockAt s.mem (blockAddr args.src (blocksAcross args.width) at') blk) (hbyte : byte0 blk ≠ 0) :
    ∃ t, decodeOne args at' s = .next (t, true)
      ∧ KeepsPixels args (blockPixels at') s.mem t.mem
      ∧ ∀ i < 16, InImage args (pixelOf at' i) → PixelIs args t.mem (pixelOf at' i) (blockTex blk)[Fin.ofNat 16 i] := by
  have hheld := blkHeld_loadBlk blk s
  obtain ⟨u, m, hexec, htex, hstatus, hmem⟩ := exec_decodeBlock_tex hbyte (loadBlk blk s)
  have hrun := exec_decodeBlock_operandBlock (loadBlk blk s)
  rw [operandBlock_held _ hheld, blkValue_loadBlk] at hrun
  obtain rfl : u = runDecode modeTable (loadBlk blk s) := Host.Outcome.next.inj (hexec.symm.trans hrun)
  obtain ⟨t, hstore, hother, hstored⟩ := storeTexels_valid (args := args) (at' := at') (is := List.range 16)
    (fun i hi => List.mem_range.mp hi) (hstatus ▸ statusValid_decodedStatus m)
  have hnofault : statusFault (decodedStatus m) = false := statusFault_statusWord ..
  simp only [List.mem_range, hmem, htex] at hother hstored
  refine ⟨t, ?returns, hother, hstored⟩
  case returns =>
    rw [decodeOne, loadBlock_present hblk, andThen_next, regWrite_decode hheld, andThen_next, regRead_status, andThen_next,
      hstatus, hnofault, hstore]
    rfl

/-- Pass 2 over blocks that are present, not reserved and outside the image: every block's pixels end as its texels. -/
theorem decodeGrid_present {args : DecodeArgs} {blocks : Nat × Nat → Block} {bs : List (Nat × Nat)} {s : State}
    (hsource : ∀ at' ∈ bs, BlockAt s.mem (blockAddr args.src (blocksAcross args.width) at') (blocks at'))
    (hbyte : ∀ at' ∈ bs, byte0 (blocks at') ≠ 0)
    (hapart : ∀ at' ∈ bs, ∀ j < 16, OutsideImage args (blockAddr args.src (blocksAcross args.width) at' + j)) :
    ∃ t, decodeGrid args bs s = .next (t, true)
      ∧ KeepsPixels args (bs.flatMap blockPixels) s.mem t.mem
      ∧ ∀ at' ∈ bs, ∀ i < 16, InImage args (pixelOf at' i) →
        PixelIs args t.mem (pixelOf at' i) (blockTex (blocks at'))[Fin.ofNat 16 i] := by
  induction bs generalizing s with
  | nil => exact ⟨s, rfl, fun _ _ _ _ h => h, nofun⟩
  | cons bt rest ih =>
    obtain ⟨hsourceHead, hsourceRest⟩ := List.forall_mem_cons.mp hsource
    obtain ⟨hbyteHead, hbyteRest⟩ := List.forall_mem_cons.mp hbyte
    obtain ⟨-, hapartRest⟩ := List.forall_mem_cons.mp hapart
    obtain ⟨s', hone, hotherHead, hstoredHead⟩ := decodeOne_present hsourceHead hbyteHead
    have hsource' : ∀ at' ∈ rest, BlockAt s'.mem (blockAddr args.src (blocksAcross args.width) at') (blocks at') :=
      fun at' hat j hj => (keptByPass2_outside (hapartRest at' hat j hj) _).decodeOne hone (hsourceRest at' hat j hj)
    obtain ⟨t, hgrid, hotherRest, hstoredRest⟩ := ih hsource' hbyteRest hapartRest
    refine ⟨t, ?returns, ?keeps, ?stores⟩
    case returns =>
      rw [decodeGrid, hone, andThen_next]
      exact hgrid
    case keeps =>
      intro px w hpx hnot hword
      rw [List.flatMap_cons, List.mem_append, not_or] at hnot
      obtain ⟨hnotHead, hnotRest⟩ := hnot
      exact hotherRest px w hpx hnotRest (hotherHead px w hpx hnotHead hword)
    case stores =>
      intro at' hat i hi hin
      by_cases hatRest : at' ∈ rest
      · exact hstoredRest at' hatRest i hi hin
      · obtain rfl : at' = bt := (List.mem_cons.mp hat).resolve_right hatRest
        refine hotherRest _ _ hin ?notWritten (hstoredHead i hi hin)
        intro hmem
        obtain ⟨ct, hct, hpixel⟩ := List.mem_flatMap.mp hmem
        obtain ⟨k, hk, heq⟩ := List.mem_map.mp hpixel
        exact hatRest ((pixelOf_inj (List.mem_range.mp hk) hi heq).1 ▸ hct)

/-! ### The whole call -/

/-- With every block present and none reserved, pass 1 finds nothing. -/
theorem anyReserved_of_blocks {args : DecodeArgs} {m : Memory} {blocks : Nat × Nat → Block} {bs : List (Nat × Nat)}
    (hsource : ∀ at' ∈ bs, BlockAt m (blockAddr args.src (blocksAcross args.width) at') (blocks at'))
    (hbyte : ∀ at' ∈ bs, byte0 (blocks at') ≠ 0) :
    anyReserved m (bs.map (blockAddr args.src (blocksAcross args.width))) = .next false := by
  have hfirst : ∀ at' ∈ bs, Memory.read m (blockAddr args.src (blocksAcross args.width) at') = some (byte0 (blocks at')) :=
    fun at' hat => hsource at' hat 0 (by decide)
  have hpresent : ∀ a ∈ bs.map (blockAddr args.src (blocksAcross args.width)), (Memory.read m a).isSome = true := by
    intro a ha
    obtain ⟨at', hat, rfl⟩ := List.mem_map.mp ha
    rw [hfirst at' hat, Option.isSome_some]
  rw [anyReserved_of_present hpresent]
  refine congrArg Host.Outcome.next (decide_eq_false ?_)
  rintro ⟨a, ha, hzero⟩
  obtain ⟨at', hat, rfl⟩ := List.mem_map.mp ha
  exact hbyte at' hat (Option.some.inj ((hfirst at' hat).symm.trans hzero))

/-- Block (x, y) of an image lies in its source span (46_host_interface.md R148, R149). -/
theorem blockAddr_bounds {src bw bh j : Nat} {at' : Nat × Nat} (hx : at'.1 < bw) (hy : at'.2 < bh) (hj : j < 16) :
    src ≤ blockAddr src bw at' + j ∧ blockAddr src bw at' + j < src + 16 * bw * bh := by
  have hrow : bw * at'.2 + bw ≤ bw * bh :=
    calc bw * at'.2 + bw
      _ = bw * (at'.2 + 1) := (Nat.mul_succ ..).symm
      _ ≤ bw * bh := Nat.mul_le_mul_left bw hy
  rw [Nat.mul_assoc]
  unfold blockAddr
  omega

/-- A BC7 decode that passes its checks and whose pass 2 leaves the source span as it was. -/
theorem decodeBc7_of_decodeGrid {args : DecodeArgs} {s t : State} (hsize : sourceBytes args.width args.height ≤ args.srcSize)
    (hscan : anyReserved s.mem (blockAddrs args) = .next false)
    (hgrid : decodeGrid args (imageGrid args) s = .next (t, true))
    (hspan : Memory.span t.mem args.src (sourceBytes args.width args.height) =
      Memory.span s.mem args.src (sourceBytes args.width args.height)) :
    decodeBc7 args s = .next (returnCall (.decode true) t) := by
  unfold sourceBytes at hsize hspan
  unfold blockAddrs at hscan
  unfold imageGrid at hgrid
  simp only [decodeBc7, if_neg (Nat.not_lt.mpr hsize), hscan, andThen_next, Bool.false_eq_true, if_false, hgrid, if_pos hspan]

/-- Settles O58: pass 1 finds no reserved block, and pass 2 stores every pixel without touching the source span. -/
theorem decodeWritesTheWholeImage : Obligations.DecodeWritesTheWholeImage := by
  intro bits args s blocks hadmitted hsize hpresent hbytes hspans
  have hsource : ∀ at' ∈ imageGrid args,
      BlockAt s.mem (blockAddr args.src (blocksAcross args.width) at') (blocks at'.1 at'.2) := by
    intro at' hat j hj
    obtain ⟨hx, hy⟩ := mem_blockGrid.mp hat
    exact hpresent at'.1 at'.2 j hx hy hj
  have hbyte : ∀ at' ∈ imageGrid args, byte0 (blocks at'.1 at'.2) ≠ 0 := by
    intro at' hat
    obtain ⟨hx, hy⟩ := mem_blockGrid.mp hat
    exact hbytes at'.1 at'.2 hx hy
  have houtside : ∀ a, args.src ≤ a → a < args.src + 16 * blocksAcross args.width * blocksAcross args.height →
      OutsideImage args a := by
    intro a hlow hhigh
    unfold OutsideImage
    unfold blocksAcross at hhigh
    omega
  have hapart : ∀ at' ∈ imageGrid args, ∀ j < 16,
      OutsideImage args (blockAddr args.src (blocksAcross args.width) at' + j) := by
    intro at' hat j hj
    obtain ⟨hx, hy⟩ := mem_blockGrid.mp hat
    obtain ⟨hlow, hhigh⟩ := blockAddr_bounds (src := args.src) hx hy hj
    exact houtside _ hlow hhigh
  obtain ⟨t, hgrid, -, hstored⟩ := decodeGrid_present hsource hbyte hapart
  have hspan : Memory.span t.mem args.src (sourceBytes args.width args.height) =
      Memory.span s.mem args.src (sourceBytes args.width args.height) :=
    span_eq_iff.mpr fun j hj =>
      (keptByPass2_outside (houtside _ (by omega) (Nat.add_lt_add_left hj _)) _).decodeGrid hgrid rfl
  refine ⟨returnCall (.decode true) t, ?returns, rfl, fun x y hx hy => ?pixel⟩
  case returns =>
    rw [callDecode_admitted s hadmitted]
    exact decodeBc7_of_decodeGrid hsize (anyReserved_of_blocks hsource hbyte) hgrid hspan
  case pixel =>
    have hi : 4 * (y % 4) + x % 4 < 16 := by omega
    have hat : (x / 4, y / 4) ∈ imageGrid args :=
      mem_blockGrid.mpr ⟨by unfold blocksAcross; omega, by unfold blocksAcross; omega⟩
    have hpixel : pixelOf (x / 4, y / 4) (4 * (y % 4) + x % 4) = (x, y) :=
      Prod.ext (by simp only [pixelOf]; omega) (by simp only [pixelOf]; omega)
    obtain ⟨u, m, hexec, htex, -, -⟩ := exec_decodeBlock_tex (hbyte _ hat) s
    have hword := hstored _ hat _ hi (hpixel ▸ ⟨hx, hy⟩)
    rw [hpixel, ← htex] at hword
    exact ⟨u, hexec, hword⟩

end Sys2Proof.Machine
end

section
/-! The invariant of the machine (10_state.md R25, 60_exceptions.md R167) and of runs inside the host's contract
(70_reset_and_hazards.md R186): what each access keeps is said once, and both invariants are instances. -/

namespace Sys2Proof.Machine

/-! ### STATUS words -/

/-- A STATUS of the invariant: legal, and without BitBudget. -/
def StatusOk (w : Word) : Prop := legalStatus w = true ∧ statusFcause w ≠ 2

theorem statusOk_zero : StatusOk 0 := by unfold StatusOk; decide

theorem statusOk_reservedMode : StatusOk (faultStatus .reservedMode) := by unfold StatusOk; decide

theorem statusOk_illegalCommand : StatusOk (faultStatus .illegalCommand) := by unfold StatusOk; decide

theorem statusOk_modeKnown (m : Mode) : StatusOk (modeKnownStatus m) := by unfold StatusOk; revert m; decide

theorem statusOk_decoded (m : Mode) : StatusOk (decodedStatus m) := by unfold StatusOk; revert m; decide

/-! ### Instructions keep the invariants -/

/-- The invariant speaks of BLK, STATUS and memory only. -/
theorem State.Inv.congr {s t : State} (hs : s.Inv) (hblk : sameBlk s t) (hstatus : StatusOk t.status)
    (hmem : Memory.wf t.mem = true) : t.Inv := by
  obtain ⟨-, -, hform, -⟩ := hs
  refine ⟨hstatus.1, hstatus.2, fun k hk => ?_, hmem⟩
  rw [getBlk_of_sameBlk hblk k] at hk ⊢
  exact hform k hk

theorem State.Inv.statusOk {s : State} (hs : s.Inv) : StatusOk s.status :=
  have ⟨hlegal, hcause, _, _⟩ := hs
  ⟨hlegal, hcause⟩

theorem State.Inv.mem_wf {s : State} (hs : s.Inv) : Memory.wf s.mem = true :=
  have ⟨_, _, _, hmem⟩ := hs
  hmem

/-- With neither VALID nor MODE_VALID set, the contract's invariant says no more. -/
theorem State.Inv.contractInv {s : State} (hs : s.Inv) (hvalid : statusValid s.status = false)
    (hmode : statusModeValid s.status = false) : s.ContractInv :=
  ⟨hs, fun hv => absurd hv (by simp [hvalid]), fun hv => absurd hv (by simp [hmode])⟩

theorem LeavesStatus.statusOk {i : Instr} {s : State} {w : Word} (h : LeavesStatus i s w) (hs : s.Inv) : StatusOk w := by
  obtain ⟨-, rfl⟩ | rfl | rfl | ⟨-, m, rfl⟩ := h
  · exact hs.statusOk
  · exact statusOk_reservedMode
  · exact statusOk_illegalCommand
  · exact statusOk_modeKnown m

theorem exec_keeps_inv {i : Instr} {s t : State} (h : exec i s = .next t) (hs : s.Inv) : t.Inv := by
  obtain ⟨used, -, ⟨w, hw, rfl⟩ | ⟨-, m, f, rfl⟩⟩ := exec_eq_next h
  · exact hs.congr (sameBlk_of_exec h) (hw.statusOk hs) hs.mem_wf
  · refine hs.congr (sameBlk_of_exec h) ?_ ?_
    · simpa using statusOk_decoded m
    · simpa using hs.mem_wf

/-- Only a command over held words can set VALID or MODE_VALID. -/
theorem exec_keeps_contract {i : Instr} {s t : State} (h : exec i s = .next t) (hs : s.ContractInv)
    (hdecode : ¬ WritesNoTexels i → blkHeld s = true) (hmodeq : i = .modeq → s.blk0.held = true) : t.ContractInv := by
  obtain ⟨hinv, hvalid, hmode⟩ := hs
  have hinv' := exec_keeps_inv h hinv
  obtain ⟨used, -, ⟨w, hw, rfl⟩ | ⟨htexels, m, f, rfl⟩⟩ := exec_eq_next h
  · obtain ⟨-, rfl⟩ | rfl | rfl | ⟨hi, m, rfl⟩ := hw
    · exact ⟨hinv', hvalid, hmode⟩
    · exact hinv'.contractInv (statusValid_statusWord ..) (statusModeValid_statusWord ..)
    · exact hinv'.contractInv (statusValid_statusWord ..) (statusModeValid_statusWord ..)
    · refine ⟨hinv', fun hv => ?_, fun _ => hmodeq hi⟩
      rw [spendFree_status, setStatus_status, modeKnownStatus, statusValid_statusWord] at hv
      cases hv
  · have hheld : blkHeld (spendFree used (finishDecode m f s)) = true := by simpa [blkHeld] using hdecode htexels
    exact ⟨hinv', fun _ => hheld, fun _ => (blkHeld_eq_true _).mp hheld 0⟩

/-! ### What every access keeps -/

/-- A property that the operations behind the host's accesses keep; a CMD write of the host's own is left to the property. -/
structure KeptByAccess (P : State → Prop) : Prop where
  load : ∀ s k w, P s → P (setBlk s k w)
  decode : ∀ s, blkHeld s = true → P s → P (runDecode modeTable s)
  modeq : ∀ s, s.blk0.held = true → P s → P (runModeq s)
  memory : ∀ (s : State) m, (Memory.wf s.mem = true → Memory.wf m = true) → P s → P { s with mem := m }
  host : ∀ (s : State) pending readData callResult freeUsed, P s →
    P { s with pending := pending, readData := readData, callResult := callResult, freeUsed := freeUsed }
  reset : ∀ s, P s → P (resetCore s)

/-- The three ways a register write goes on. -/
theorem regWrite_eq_next {bits off : Nat} {v : Word} {s t : State} (h : regWrite bits off v s = .next t) :
    (∃ k, t = setBlk s k v) ∨ t = s ∨ (bits = 32 ∧ off = 0x10 ∧ ∃ i, decodeCommand v = .ok i ∧ exec i s = .next t) := by
  cases hn : admitAccess bits off with
  | error e => rw [regWrite_refused v s hn] at h; cases h
  | ok n =>
    obtain ⟨rfl, rfl⟩ := offset_of_admitAccess hn
    rw [regWrite_offset] at h
    cases n with
    | blk k => cases h; exact .inl ⟨k, rfl⟩
    | cmd =>
      cases hi : decodeCommand v with
      | error e => rw [writeReg, startCommand_error s hi] at h; cases h
      | ok i =>
        rw [writeReg, startCommand_ok s hi] at h
        exact .inr (.inr ⟨rfl, rfl, i, rfl, h⟩)
    | status => cases h; exact .inr (.inl rfl)
    | tex i => cases h; exact .inr (.inl rfl)

/-- A `block_mode` that returns did nothing else, or loaded BLK0 and ran MODEQ. -/
theorem callBlockMode_next {bits : Nat} {args : BlockModeArgs} {s t : State} (h : callBlockMode bits args s = .next t) :
    ∃ r, t = returnCall r s ∨ ∃ w, t = returnCall r (runModeq (setBlk s 0 w)) := by
  simp only [callBlockMode] at h
  split_ifs at h with hfit hspan
  · cases h; exact ⟨_, .inl rfl⟩
  · rw [andThen_eq_next] at h
    obtain ⟨v, -, h⟩ := h
    have hload : regWrite 32 0x00 (BitVec.ofNat 32 v) s = .next (setBlk s 0 (BitVec.ofNat 32 v)) :=
      regWrite_offset (.blk 0) _ s
    rw [hload, andThen_next, regWrite_modeq rfl, andThen_next, regRead_status, andThen_next] at h
    split_ifs at h <;> cases h <;> exact ⟨_, .inr ⟨_, rfl⟩⟩

section KeptByAccess
variable {P : State → Prop} (hP : KeptByAccess P)
include hP

theorem KeptByAccess.returnCall {s : State} (r : CallResult) (hs : P s) : P (returnCall r s) :=
  hP.host s s.pending s.readData (some r) s.freeUsed hs

theorem KeptByAccess.keptByPass2 (args : DecodeArgs) : KeptByPass2 args P where
  load := hP.load
  decode := hP.decode
  pixel s _ w _ _ := hP.memory s _ (memWriteWord_wf s.mem _ w)

theorem KeptByAccess.decodeDispatch {f : FormatTag} {args : DecodeArgs} {s t : State}
    (h : decodeDispatch f args s = .next t) (hs : P s) : P t := by
  cases f with
  | unknown =>
    cases h
    have hstored := hP.memory s _ (Memory.wf_writeBytes
      ((List.range args.dstSize).map fun j => Config.freeDstByte (s.freeUsed + j)) s.mem args.dst) hs
    have hreturned := hP.host _ s.pending s.readData (some (.decode false)) (s.freeUsed + args.dstSize) hstored
    exact hreturned
  | bc6hSignedFloat | bc6hUnsignedFloat => cases h; exact hP.returnCall _ hs
  | bc7Unorm =>
    obtain rfl | ⟨q, hgrid, -, rfl⟩ := decodeBc7_next h
    · exact hP.returnCall _ hs
    · exact hP.returnCall _ ((hP.keptByPass2 args).decodeGrid hgrid hs)

theorem KeptByAccess.callBlockMode {bits : Nat} {args : BlockModeArgs} {s t : State}
    (h : callBlockMode bits args s = .next t) (hs : P s) : P t := by
  obtain ⟨r, rfl | ⟨w, rfl⟩⟩ := callBlockMode_next h
  · exact hP.returnCall r hs
  · exact hP.returnCall r (hP.modeq _ rfl (hP.load s 0 w hs))

/-- Every access keeps the property, as far as the host's own commands do. -/
theorem KeptByAccess.runAccess {x : HostAccess} {s t : State}
    (hcommand : ∀ w i, x = .regWrite 32 0x10 w → decodeCommand w = .ok i → exec i s = .next t → P t)
    (h : runAccess x s = .next t) (hs : P s) : P t := by
  cases x with
  | regWrite bits off v =>
    obtain ⟨k, rfl⟩ | rfl | ⟨rfl, rfl, i, hi, hexec⟩ := regWrite_eq_next h
    · exact hP.load s k v hs
    · exact hs
    · exact hcommand v i rfl hi hexec
  | regRead bits off =>
    rw [Machine.runAccess, andThen_eq_next] at h
    obtain ⟨v, -, h⟩ := h
    cases h
    exact hP.host s s.pending (some v) s.callResult _ hs
  | memWrite a bytes => cases h; exact hP.memory s _ (Memory.wf_writeBytes bytes s.mem a) hs
  | memRead a =>
    rw [Machine.runAccess, andThen_eq_next] at h
    obtain ⟨b, -, h⟩ := h
    cases h
    exact hP.host s s.pending _ s.callResult s.freeUsed hs
  | platformReset => cases h; exact hP.reset s hs
  | outputSize f width height =>
    rw [Machine.runAccess, callOutputSize] at h
    split_ifs at h
    cases h
    exact hP.returnCall _ hs
  | decodeImage args =>
    obtain ⟨-, -, -, -, hdispatch⟩ := callDecode_next_dispatch _ args s t h
    exact hP.decodeDispatch hdispatch hs
  | blockMode args => exact hP.callBlockMode h hs

/-- Every step keeps the property, as far as the host's own commands do. -/
theorem KeptByAccess.step {s t : State}
    (hcommand : ∀ w rest i, s.pending = .regWrite 32 0x10 w :: rest → decodeCommand w = .ok i → P { s with pending := rest } →
      exec i { s with pending := rest } = .next t → P t)
    (h : step s = .next t) (hs : P s) : P t := by
  cases hpending : s.pending with
  | nil =>
    rw [Machine.step, hpending] at h
    cases h
    exact hs
  | cons x rest =>
    rw [step_of_pending s x rest hpending] at h
    have hs' : P { s with pending := rest } := hP.host s rest s.readData s.callResult s.freeUsed hs
    exact hP.runAccess (fun w i hx hi => hcommand w rest i (hx ▸ hpending) hi hs') h hs'

end KeptByAccess

/-! ### The two invariants -/

/-- A BLK write keeps the form of the registers without a value. -/
theorem setBlk_keeps_inv {s : State} (k : Fin 4) (w : Word) (hs : s.Inv) : (setBlk s k w).Inv := by
  obtain ⟨hlegal, hcause, hform, hmem⟩ := hs
  refine ⟨by rwa [setBlk_status], by rwa [setBlk_status], fun j hj => ?_, by rwa [setBlk_mem]⟩
  by_cases hjk : j = k
  · subst hjk
    rw [getBlk_setBlk_same] at hj
    cases hj
  · rw [getBlk_setBlk_other s k j w hjk] at hj ⊢
    exact hform j hj

theorem keptByAccess_inv : KeptByAccess State.Inv where
  load _ k w hs := setBlk_keeps_inv k w hs
  decode s _ hs := exec_keeps_inv (exec_decodeBlock_operandBlock s) hs
  modeq s hheld hs := exec_keeps_inv (i := .modeq) (execModeq_held s hheld) hs
  memory _ _ hwf hs := hs.congr ⟨rfl, rfl, rfl, rfl⟩ hs.statusOk (hwf hs.mem_wf)
  host _ _ _ _ _ hs := hs.congr ⟨rfl, rfl, rfl, rfl⟩ hs.statusOk hs.mem_wf
  reset s hs := ⟨statusOk_zero.1, statusOk_zero.2, fun k _ => (noValue_resetCore s).2 k, hs.mem_wf⟩

/-- A BLK write takes no value away. -/
theorem held_setBlk {s : State} {j : Fin 4} (k : Fin 4) (w : Word) (h : (getBlk s j).held = true) :
    (getBlk (setBlk s k w) j).held = true := by
  by_cases hjk : j = k
  · rw [hjk, getBlk_setBlk_same]
  · rwa [getBlk_setBlk_other s k j w hjk]

theorem keptByAccess_contractInv : KeptByAccess State.ContractInv where
  load s k w hs := by
    obtain ⟨hinv, hvalid, hmode⟩ := hs
    refine ⟨setBlk_keeps_inv k w hinv, ?_, ?_⟩ <;> rw [setBlk_status]
    · intro hv
      rw [blkHeld_eq_true]
      exact fun j => held_setBlk k w ((blkHeld_eq_true s).mp (hvalid hv) j)
    · exact fun hv => held_setBlk (j := 0) k w (hmode hv)
  decode s hheld hs := exec_keeps_contract (i := .decode) (execDecode_held s hheld) hs (fun _ => hheld) nofun
  modeq s hheld hs := exec_keeps_contract (i := .modeq) (execModeq_held s hheld) hs
    (fun htexels => absurd (.inr (.inl rfl)) htexels) fun _ => hheld
  memory s m hwf hs := ⟨keptByAccess_inv.memory s m hwf hs.1, hs.2⟩
  host s _ _ _ _ hs := ⟨keptByAccess_inv.host s _ _ _ _ hs.1, hs.2⟩
  reset s hs :=
    have hnone := noValue_resetCore s
    (keptByAccess_inv.reset s hs.1).contractInv hnone.statusValid hnone.statusModeValid

/-- Settles O49: STATUS 0 is legal and has neither VALID nor MODE_VALID. -/
theorem resetMeetsTheInvariant : Obligations.ResetMeetsTheInvariant := by
  have hinv : State.reset.Inv := ⟨statusOk_zero.1, statusOk_zero.2, fun k _ => noValue_reset.2 k, reset_mem_wf⟩
  exact ⟨hinv, hinv.contractInv noValue_reset.statusValid noValue_reset.statusModeValid⟩

/-- The commands a CMD word can start, inside the contract, read only words that hold a value. -/
theorem operandsHeld_of_commandDefined {w : Word} {i : Instr} {s : State} (hi : decodeCommand w = .ok i)
    (h : commandDefined w s = true) : (¬ WritesNoTexels i → blkHeld s = true) ∧ (i = .modeq → s.blk0.held = true) := by
  rw [commandDefined_ok w i s hi] at h
  unfold decodeCommand at hi
  split_ifs at hi <;> cases hi
  · exact ⟨fun htexels => absurd (.inl rfl) htexels, nofun⟩
  · exact ⟨fun _ => h, nofun⟩
  · exact ⟨fun htexels => absurd (.inr (.inl rfl)) htexels, fun _ => h⟩
  · exact ⟨fun htexels => absurd (.inr (.inr (.inl rfl))) htexels, nofun⟩

/-- Settles O50: both invariants are kept by every access, and by the commands that the host starts. -/
theorem everyStepKeepsTheInvariant : Obligations.EveryStepKeepsTheInvariant := by
  refine ⟨?machine, ?contract⟩
  case machine =>
    exact fun s t hs h => keptByAccess_inv.step (fun _ _ _ _ _ hs' hexec => exec_keeps_inv hexec hs') h hs
  case contract =>
    intro s t hs h
    obtain ⟨hstep, hdefined⟩ := (contractStep_eq_some s (.next t)).mp h
    refine keptByAccess_contractInv.step (fun w rest i hpending hi hs' hexec => ?_) hstep hs
    obtain ⟨hdecode, hmodeq⟩ := operandsHeld_of_commandDefined hi (hdefined _ rest hpending)
    exact exec_keeps_contract hexec hs' hdecode hmodeq

end Sys2Proof.Machine
end
